-- ==== Sys2Proof/Word.lean ====
section
/-! DEFINITION. The bit widths of the led_grid core (spec 00_scope.md R12): nothing but names for `BitVec` types. -/

namespace Sys2Proof

/-- One byte, the cell of `DATA` and of `PX` (R14, R61, R62). -/
abbrev Byte := BitVec 8

/-- A 32-bit word: the `CMD` header, an argument register, a packed pulse descriptor, a register of the register view (R12). -/
abbrev Word := BitVec 32

/-- A 4-bit field of the `CMD` header, or a sequencer code (R93, R110). -/
abbrev Nibble := BitVec 4

/-- A duration field, `DUR_W = 15` bits, in ticks (R12, R100). -/
abbrev Ticks := BitVec 15

end Sys2Proof
end

