-- ==== Sys2Proof/Config.lean ====
section
/-! DEFINITION. What an implementation fixes and the spec leaves OPEN (92_eei_decisions.md, "Open parameters in one list"):
the Timing Profile, the tick, the wait bound; and the free values: the answers of the two oracles where no answer is written
down for them, and the values the spec calls unspecified. Every constant here that has no body is free: no proof can see a
value of it. -/

namespace Sys2Proof

/-- The Timing Profile `TP = (T0H, T0L, T1H, T1L, TRESET)` of R10, in ticks. The four durations are `DUR_W = 15` bits wide
(R12); `TRESET` has no upper bound (R10), so it is a number. -/
structure TimingProfile where
  t0h : Ticks
  t0l : Ticks
  t1h : Ticks
  t1l : Ticks
  treset : Nat
deriving DecidableEq, Repr

/-- The range R10 gives each of the five durations: at least one tick. (The upper bound 32767 of the four is the width.) -/
abbrev TimingProfile.wf (tp : TimingProfile) : Prop :=
  tp.t0h ≠ 0 ∧ tp.t0l ≠ 0 ∧ tp.t1h ≠ 0 ∧ tp.t1l ≠ 0 ∧ 1 ≤ tp.treset

/-- The build-time parameters of one core: the profile (R10), the length of a tick `TICK_NS = tickNum / tickDen` nanoseconds
(a positive rational, R10) and the wait bound `WAIT_TIMEOUT_MS = waitNum / waitDen` milliseconds (R11). The range of the bound is
`> 0` with no word on fractions; that it is rational is the model's choice (DESIGN CHOICE, log entry 3). -/
structure Params where
  tp : TimingProfile
  tickNum : Nat
  tickDen : Nat
  waitNum : Nat
  waitDen : Nat
deriving DecidableEq, Repr

/-- The ranges of R10 and of the table of open parameters. -/
abbrev Params.wf (p : Params) : Prop :=
  p.tp.wf ∧ 1 ≤ p.tickNum ∧ 1 ≤ p.tickDen ∧ 1 ≤ p.waitNum ∧ 1 ≤ p.waitDen

namespace Config

/-- OPEN (R10, D8): one less than `T0H`. -/
opaque rawT0h : Fin 32767
/-- OPEN (R10, D8): one less than `T0L`. -/
opaque rawT0l : Fin 32767
/-- OPEN (R10, D8): one less than `T1H`. -/
opaque rawT1h : Fin 32767
/-- OPEN (R10, D8): one less than `T1L`. -/
opaque rawT1l : Fin 32767
/-- OPEN (R10, D8): one less than `TRESET`. -/
opaque rawTreset : Nat
/-- OPEN (R10, D8): one less than the numerator of `TICK_NS`. -/
opaque rawTickNum : Nat
/-- OPEN (R10, D8): one less than the denominator of `TICK_NS`. -/
opaque rawTickDen : Nat
/-- OPEN (R11, D12): one less than the numerator of `WAIT_TIMEOUT_MS`. -/
opaque rawWaitNum : Nat
/-- OPEN (R11, D12): one less than the denominator of `WAIT_TIMEOUT_MS`. -/
opaque rawWaitDen : Nat

/-- The profile of this build: any one in the range of R10. -/
def profile : TimingProfile :=
  { t0h := BitVec.ofNat 15 (rawT0h.val + 1), t0l := BitVec.ofNat 15 (rawT0l.val + 1),
    t1h := BitVec.ofNat 15 (rawT1h.val + 1), t1l := BitVec.ofNat 15 (rawT1l.val + 1),
    treset := rawTreset + 1 }

/-- The parameters of this build: any in the ranges of R10 and R11. -/
def params : Params :=
  { tp := profile, tickNum := rawTickNum + 1, tickDen := rawTickDen + 1, waitNum := rawWaitNum + 1,
    waitDen := rawWaitDen + 1 }

/-- `AllocOracle` (R142, D6), the answer to the `n`-th free draw: `true` is `ok`. -/
opaque allocAnswer : Nat → Bool
/-- `TxOracle` (R206, D20), the answer to a configure, install or submit request: `true` is `ok`. -/
opaque txAnswer : Nat → Bool
/-- `TxOracle` (R205, R206), TX's next move while a frame is in flight: 0 goes on, 1 fails, `k + 2` lets `k + 1` ticks pass. -/
opaque txMove : Nat → Nat
/-- Which of the held commands is accepted next (R251, R271): any. -/
opaque pick : Nat → Nat
/-- A byte of `DATA` that the host's length announces and the host does not offer (log entry 14): draw, index. -/
opaque freeByte : Nat → Nat → Byte
/-- `any value` of the level of the output line (R262, U11); `true` is high. -/
opaque freeHighLevel : Nat → Bool
/-- What register 12 of this build reads where `WAIT_TIMEOUT_TICKS` is no whole number (log entry 4): the quotient's
numerator and denominator. -/
opaque waitReading : Nat → Nat → Word
/-- What register 11 of this build reads where `TRESET` does not fit its 32 bits (log entry 4). -/
opaque tresetReading : Nat → Word
/-- `any value` of a register or pin that has no meaning (R33, R39; 93_implementation_defined.md U11). -/
opaque freeWord : Nat → Word
/-- `any value` of the high duration of a pulse-buffer cell never written (R25, U7): draw, index. -/
opaque freeHigh : Nat → Nat → Ticks
/-- `any value` of the low duration of a pulse-buffer cell never written (R25, U7): draw, index. -/
opaque freeLow : Nat → Nat → Ticks

end Config

end Sys2Proof
end

