-- ==== Sys2Proof/Syntax.lean ====
section
/-! DEFINITION. The thirteen operations of spec/opcode_table.json (30_encoding.md R97) as one inductive type, with the
operands of the two host commands (R91, R93 to R95) and the pulse descriptor (R99). -/

namespace Sys2Proof

/-- The abstract pulse descriptor `(high, low)` of R27 and R99, in ticks. -/
structure Pd where
  high : Ticks
  low : Ticks
deriving DecidableEq, Repr

/-- The operands of a host command as the host presents them (R93, R95): how many arguments, the two type tags, the two
argument registers, and the byte sequence `DATA` a `BYTES` argument stands for, as far as the host offers it, carried by value
(R61, D28). -/
structure Call where
  argc : Nibble
  tag0 : Nibble
  tag1 : Nibble
  arg0 : Word
  arg1 : Word
  data : List Byte
deriving DecidableEq, Repr

/-- The type tag of an `INT` argument (R94). -/
def tagInt : Nibble := 1
/-- The type tag of a `BYTES` argument (R94). -/
def tagBytes : Nibble := 2

/-- Argument `j` (0 or 1) of the call is present and is a byte sequence (R94, R95). -/
def Call.bytes0 (c : Call) : Bool := decide (1 ≤ c.argc.toNat ∧ c.tag0 = tagBytes)
/-- The same of argument 1. -/
def Call.bytes1 (c : Call) : Bool := decide (2 ≤ c.argc.toNat ∧ c.tag1 = tagBytes)

/-- `L`: how many bytes the command's `BYTES` argument offers, its argument register read unsigned (R95, R107); 0 where it
has none. -/
def Call.dataLen (c : Call) : Nat :=
  if c.bytes0 then c.arg0.toNat else if c.bytes1 then c.arg1.toNat else 0

/-- One constructor per row of spec/opcode_table.json (R97). The commands are those of the host (format `CMD`), the symbols
are what TX drives on the wire (format `PD`), the rest are the sequencer's micro-operations (format `UOP`). -/
inductive Instr where
  /-- INITIALIZE, `OPC = 1` (R160). -/
  | hostInitialize (c : Call)
  /-- SHOW, `OPC = 2` (R180). -/
  | hostShow (c : Call)
  /-- SYM0, the descriptor of a clear bit (R101, R120). -/
  | sym0
  /-- SYM1, the descriptor of a set bit (R101, R120). -/
  | sym1
  /-- BUF.RELEASE, code 2 (R146). -/
  | bufRelease
  /-- BUF.ALLOC_PX, code 3 (R143). -/
  | bufAllocPx
  /-- BUF.ALLOC_PL, code 4 (R144). -/
  | bufAllocPl
  /-- TX.CONFIGURE, code 5 (R201). -/
  | txConfigure
  /-- TX.INSTALL, code 6 (R202). -/
  | txInstall
  /-- BUF.COPY, code 8 (R147). -/
  | bufCopy
  /-- BUF.FILL, code 9 (R148). -/
  | bufFill
  /-- TX.SUBMIT, code 10 (R203). -/
  | txSubmit
  /-- TX.WAIT, code 11 (R204). -/
  | txWait
deriving DecidableEq, Repr

end Sys2Proof
end

