-- ==== Sys2Proof/WellFormed.lean ====
section
/-! DEFINITION. When an instruction is well formed: the two conditions the encoding puts on a host command (R95, R105). The
symbols and the micro-operations have no operands, so each of them is well formed. -/

namespace Sys2Proof

/-- At most one `BYTES` argument: there is one `DATA` space, and a header with two of them is reserved (R95, R105). -/
def Call.oneData (c : Call) : Bool := !(c.bytes1 && decide (c.tag0 = tagBytes))

/-- `DATA` has no more bytes than the command's `BYTES` argument says, and is empty where there is none (R61, R95). It may
have fewer: what a host announces and does not offer is no part of the words it presents (log entry 14). -/
def Call.dataFits (c : Call) : Bool := decide (c.data.length ≤ c.dataLen)

/-- A host command the encoding admits. -/
def Call.wf (c : Call) : Bool := c.oneData && c.dataFits

/-- A well-formed instruction. -/
def Instr.wf : Instr → Bool
  | .hostInitialize c => c.wf
  | .hostShow c => c.wf
  | .sym0 => true
  | .sym1 => true
  | .bufRelease => true
  | .bufAllocPx => true
  | .bufAllocPl => true
  | .txConfigure => true
  | .txInstall => true
  | .bufCopy => true
  | .bufFill => true
  | .txSubmit => true
  | .txWait => true

end Sys2Proof
end

