-- ==== Sys2Proof/Decode.lean ====
section
/-! DEFINITION. The three formats that name an operation, decoded and encoded: `CMD` (30_encoding.md R93 to R96, R105), `PD`
(R100, R101, R106) and `UOP` (R110). Decoding is total and refuses by name. -/

namespace Sys2Proof

/-- What a host puts on the command port (R92, R95): the header, the two argument registers and its byte sequence. -/
structure Presented where
  cmd : Word
  arg0 : Word
  arg1 : Word
  data : List Byte
deriving DecidableEq, Repr

/-- The bits that name an operation, by the place they stand in: the host's port, a pulse-buffer cell that TX reads, the
sequencer register. -/
inductive Raw where
  | cmd (p : Presented)
  | pd (w : Word)
  | uop (code : Nibble)
deriving DecidableEq, Repr

/-- Why bits are refused. -/
inductive Reject where
  /-- `CMD[31:16]` is not zero (R105). -/
  | upperHalfNotZero
  /-- `OPC` is neither 1 nor 2 (R105). -/
  | reservedOperation
  /-- Two `BYTES` arguments (R105). -/
  | twoByteSequences
  /-- A packed descriptor with `LEVEL_A = 0` or `LEVEL_B = 1` (R106). -/
  | levelsReserved
  /-- A packed descriptor with a zero duration (R106). -/
  | zeroDuration
  /-- A packed descriptor that is neither symbol of the profile (R101). -/
  | notASymbol
  /-- A sequencer code that names no micro-operation (R97, R110). -/
  | noMicroOperation
deriving DecidableEq, Repr

/-! ## The pulse descriptor and its symbols -/

/-- `pack(high, low) = (low << 16) | 0x8000 | high` (R100), written as the concatenation of its four fields. -/
def Pd.pack (d : Pd) : Word := (0#1 ++ d.low) ++ (1#1 ++ d.high)

/-- `unpack(w) = (w[14:0], w[30:16])` (R100). -/
def Pd.unpack (w : Word) : Pd := ⟨w.extractLsb' 0 15, w.extractLsb' 16 15⟩

/-- `SYM0 = (T0H, T0L)` (R101). -/
def TimingProfile.symbol0 (tp : TimingProfile) : Pd := ⟨tp.t0h, tp.t0l⟩
/-- `SYM1 = (T1H, T1L)` (R101). -/
def TimingProfile.symbol1 (tp : TimingProfile) : Pd := ⟨tp.t1h, tp.t1l⟩

/-- Which symbol of the profile a descriptor is, SYM1 looked at first: where the two are one word it is read as SYM1, as R127
reads a bit from a descriptor (log entry 13). -/
def TimingProfile.symbolOf (tp : TimingProfile) (d : Pd) : Option Instr :=
  if d = tp.symbol1 then some .sym1 else if d = tp.symbol0 then some .sym0 else none

/-- A packed descriptor as TX meets it: the two level bits and the durations as R100 and R106 have them, then the symbol. -/
def decodePd (tp : TimingProfile) (w : Word) : Except Reject Instr :=
  if w.getLsbD 31 = true ∨ w.getLsbD 15 = false then .error .levelsReserved
  else if (Pd.unpack w).high = 0 ∨ (Pd.unpack w).low = 0 then .error .zeroDuration
  else
    match tp.symbolOf (Pd.unpack w) with
    | some i => .ok i
    | none => .error .notASymbol

/-! ## The command header -/

/-- `OPC` of INITIALIZE (R93). -/
def opcInitialize : Nibble := 1
/-- `OPC` of SHOW (R93). -/
def opcShow : Nibble := 2

/-- The call a presented header carries (R93): the fields of the header beside the registers and the bytes. -/
def Presented.call (p : Presented) : Call :=
  { argc := p.cmd.extractLsb' 4 4, tag0 := p.cmd.extractLsb' 8 4, tag1 := p.cmd.extractLsb' 12 4,
    arg0 := p.arg0, arg1 := p.arg1, data := p.data }

/-- The same call with `DATA` cut to `DATA[0 .. L)` (R95); a host that offers fewer bytes leaves the rest open (log entry 14). -/
def Call.cutData (c : Call) : Call := { c with data := c.data.take c.dataLen }

/-- `decode(CMD, ARG0, ARG1)` of R96, total on every word: what is reserved is refused by name (R105). -/
def decodeCommand (p : Presented) : Except Reject Instr :=
  if p.cmd.extractLsb' 16 16 ≠ 0 then .error .upperHalfNotZero
  else if p.cmd.extractLsb' 0 4 ≠ opcInitialize ∧ p.cmd.extractLsb' 0 4 ≠ opcShow then .error .reservedOperation
  else if p.call.oneData = false then .error .twoByteSequences
  else if p.cmd.extractLsb' 0 4 = opcInitialize then .ok (.hostInitialize p.call.cutData)
  else .ok (.hostShow p.call.cutData)

/-- A sequencer code (R97, R110). -/
def decodeUop (code : Nibble) : Except Reject Instr :=
  match code.toNat with
  | 2 => .ok .bufRelease
  | 3 => .ok .bufAllocPx
  | 4 => .ok .bufAllocPl
  | 5 => .ok .txConfigure
  | 6 => .ok .txInstall
  | 8 => .ok .bufCopy
  | 9 => .ok .bufFill
  | 10 => .ok .txSubmit
  | 11 => .ok .txWait
  | _ => .error .noMicroOperation

/-- Decoding, total on any bits of any of the three formats. -/
def decode (tp : TimingProfile) : Raw → Except Reject Instr
  | .cmd p => decodeCommand p
  | .pd w => decodePd tp w
  | .uop code => decodeUop code

/-! ## The encoder -/

/-- The header word of R93. -/
def Call.header (opc : Nibble) (c : Call) : Word := 0#16 ++ (c.tag1 ++ (c.tag0 ++ (c.argc ++ opc)))

/-- The presentation of a call (R95). -/
def Call.present (opc : Nibble) (c : Call) : Presented :=
  { cmd := c.header opc, arg0 := c.arg0, arg1 := c.arg1, data := c.data }

/-- The bits of an instruction, from the same tables. -/
def encode (tp : TimingProfile) : Instr → Raw
  | .hostInitialize c => .cmd (c.present opcInitialize)
  | .hostShow c => .cmd (c.present opcShow)
  | .sym0 => .pd tp.symbol0.pack
  | .sym1 => .pd tp.symbol1.pack
  | .bufRelease => .uop 2
  | .bufAllocPx => .uop 3
  | .bufAllocPl => .uop 4
  | .txConfigure => .uop 5
  | .txInstall => .uop 6
  | .bufCopy => .uop 8
  | .bufFill => .uop 9
  | .txSubmit => .uop 10
  | .txWait => .uop 11

/-! ## The opcode table's numbering -/

/-- The bits of a word of the table, placed in the format they belong to: a row of at most one byte is a sequencer code; a
32-bit word is a command where R96 gives it one, and a packed descriptor otherwise. The two never compete: a descriptor has a
non-zero low duration, so its upper half is not zero and no command has it (log entry 24). -/
def rawOfTableWord (nbits w : Nat) : Raw :=
  if nbits ≤ 8 then .uop (BitVec.ofNat 4 w)
  else
    match decodeCommand { cmd := BitVec.ofNat 32 w, arg0 := 0, arg1 := 0, data := [] } with
    | .ok _ => .cmd { cmd := BitVec.ofNat 32 w, arg0 := 0, arg1 := 0, data := [] }
    | .error _ => .pd (BitVec.ofNat 32 w)

/-- The instruction this decoder reads from a word of spec/opcode_table.json, its operand registers zero and its `DATA`
empty. A word too wide for the format is none. -/
def decodeTableWord (nbits w : Nat) : Option Instr :=
  if (if nbits ≤ 8 then 16 else 4294967296) ≤ w then none
  else
    match decode Config.profile (rawOfTableWord nbits w) with
    | .ok i => some i
    | .error _ => none

end Sys2Proof
end

