-- ==== Sys2Proof/Machine/State.lean ====
section
/-! DEFINITION. The state of the machine (10_state.md R20), its reset value (R47), and the named ways a step can stop. Every
field is plain data. -/

namespace Sys2Proof.Machine

/-! ## Results, faults, phases -/

/-- The five result codes (R220). -/
inductive ResultCode where
  | ok
  | wrongArgCount
  | wrongArgType
  | outOfMemory
  | notInitialized
deriving DecidableEq, Repr

/-- The five fatal causes (R230). -/
inductive FatalCause where
  | txConfigure
  | txInstall
  | txSubmit
  | txWait
  | txWaitTimeout
deriving DecidableEq, Repr

/-- The sequencer register `PHASE` (R30). The reserved codes 12 to 14 are never taken and have no constructor. -/
inductive Phase where
  | idle
  | initCheck
  | initRelease
  | initAllocPx
  | initAllocPl
  | initTxConfigure
  | initTxInstall
  | showCheck
  | showCopy
  | showEncode
  | showSubmit
  | showWait
  | fault
deriving DecidableEq, Repr

/-! ## The session -/

/-- The pixel buffer's bytes by index, strictly rising, none of them 0: an index not listed reads as 0, which is what every
cell holds when the buffer is created (R24). -/
abbrev Memory := List Host.Cell

/-- The pulse buffer's descriptors by index, strictly rising: an index not listed has never been written and holds no value
(R25). -/
abbrev Pulses := List (Nat × Pd)

/-- A live session `live(pin, led_count, PX, PL)` (R21 to R25). The buffers' lengths are `3 * led_count` and
`24 * led_count` for the life of the session and are computed from it (R104). -/
structure Session where
  pin : Int
  ledCount : Nat
  px : Memory
  pl : Pulses
deriving DecidableEq, Repr

/-! ## The boundary: the allocator and the transmitter -/

/-- The two kinds of block (R142). -/
inductive BlockKind where
  | px
  | pl
deriving DecidableEq, Repr

/-- A block of the pool, known by its kind and its size in cells (R64). -/
structure Block where
  kind : BlockKind
  cells : Nat
deriving DecidableEq, Repr

/-- The direction TX is programmed for (R103, R213). -/
inductive TxMode where
  | transmit
  | receive
deriving DecidableEq, Repr

/-- The idle-output setting; the source's single phrase (R103, R208). -/
inductive IdleOutput where
  | disabledToLow
deriving DecidableEq, Repr

/-- Whether a hardware carrier is modulated on the output (R103, R213). -/
inductive Carrier where
  | none
  | modulated
deriving DecidableEq, Repr

/-- Whether a submitted frame is repeated (R103, R213). -/
inductive Looping where
  | off
  | on
deriving DecidableEq, Repr

/-- The `TXCFG` record (R103). -/
structure TxCfg where
  pin : Int
  mode : TxMode
  idleOutput : IdleOutput
  carrier : Carrier
  loop : Looping
deriving DecidableEq, Repr

/-- A frame in flight (R44): the line it goes out on, the sequence submitted; and, the model's own fields, how far TX has come:
how many of its descriptors have been driven without a gap, and whether TX has stopped inside it, so that it will not be
completed (R205 b and c, R207; log entry 7). -/
structure Frame where
  pin : Int
  seq : List Pd
  driven : Nat
  cut : Bool
deriving DecidableEq, Repr

/-- TX's signals, looked at only in `SHOW_WAIT` (R204, R241). -/
inductive TxSignal where
  | done
  | err
deriving DecidableEq, Repr

/-- How a wait ended (R46, R204). -/
inductive WaitOutcome where
  | done
  | err
  | timeout
deriving DecidableEq, Repr

/-- A level of the output line. -/
inductive Level where
  | low
  | high
deriving DecidableEq, Repr

/-! ## Commands and events at the transaction level -/

/-- A value of an argument (R91). -/
inductive Val where
  | int (z : Int)
  | bytes (bs : List Byte)
  | other
deriving DecidableEq, Repr

/-- The two operations of the host (R9, R91). -/
inductive Operation where
  | hostInitialize
  | hostShow
deriving DecidableEq, Repr

/-- `Cmd = initialize(args) | show(args)` (R91). -/
structure Command where
  op : Operation
  args : List Val
deriving DecidableEq, Repr

/-- The events of the history (R46); `true` stands for `ok`. -/
inductive Event where
  | cmd (c : Command)
  | alloc (kind : BlockKind) (cells : Nat) (ok : Bool)
  | free (kind : BlockKind) (cells : Nat)
  | txConfigure (cfg : TxCfg) (ok : Bool)
  | txInstall (ok : Bool)
  | txSubmit (seq : List Pd) (ok : Bool)
  | wire (pin : Int) (seq : List Pd)
  | txWait (o : WaitOutcome)
  | result (code : ResultCode)
  | fatal (cause : FatalCause)
deriving DecidableEq, Repr

/-! ## The world outside: the host and the oracles -/

/-- The agents that take steps (R200, R252). -/
inductive Agent where
  | host
  | core
  | tx
deriving DecidableEq, Repr

/-- What the host does next (R252): nothing for one step, a command on the port (R251), a write of a register of the register
view (R33; the bytes are its `DATA` at that moment), or reset (R260). A command comes as the words of the carrier of R93 to R95;
a value of R91's `Cmd` that no such words carry cannot be presented (DESIGN CHOICE, log entry 26). -/
inductive HostInput where
  | quiet
  | present (p : Presented)
  | write (n : Nat) (w : Word) (data : List Byte)
  | rst
deriving DecidableEq, Repr

/-- A move of TX while a frame is in flight (R205): go on with the frame, fail, or let `ticks + 1` ticks pass, which inside a
frame is to stop there for good (R207). -/
inductive TxMove where
  | go
  | fail
  | pause (ticks : Nat)
deriving DecidableEq, Repr

/-- The parameters of the step relation that the spec keeps apart from the state (R48): what the host is about to do, the
answers of the two oracles, the order in which held commands are taken. Each list is read from its head; where one has run
out, the answer is a free value of Config at the counter `draws`. A statement about every state is a statement about every
host and every oracle. -/
structure Env where
  inputs : List HostInput
  allocAnswers : List Bool
  txAnswers : List Bool
  txMoves : List TxMove
  picks : List Nat
  draws : Nat
deriving DecidableEq, Repr

/-- The complete state of R20, then the working values of a command in progress, then the parameters of the step relation. -/
structure State where
  /-- `SLOT` (R21): `none`, or the live session. -/
  slot : Option Session
  /-- `PHASE` (R30). -/
  phase : Phase
  /-- `FAULT_CAUSE` (R37): `none` is code 0. -/
  faultCause : Option FatalCause
  /-- The latch `CMD` (R34). -/
  cmd : Word
  /-- The latch `ARG0` (R35). -/
  arg0 : Word
  /-- The latch `ARG1` (R36). -/
  arg1 : Word
  /-- `RESULT` (R38): `none` is `VALID = 0`. -/
  result : Option ResultCode
  /-- `TX_INFLIGHT` (R44). -/
  txInflight : Option Frame
  /-- TX's `done` and `err` (R241): cleared by the next successful submit. -/
  txSignal : Option TxSignal
  /-- `WAIT_TIMER`, in ticks (R45, R246). -/
  waitTimer : Nat
  /-- `TX_CFG` (R45): `none` is `unprogrammed`. -/
  txCfg : Option TxCfg
  /-- `TX_INSTALLED` (R45). -/
  txInstalled : Nat
  /-- The output line of the pin TX is programmed for is held low (R200, R207, R208). Where it is not, its level is any value,
  drawn anew at each look (`readLine`; R262, U11). -/
  lineLow : Bool
  /-- `HEAP_LIVE` (R45): the blocks allocated and not yet freed, oldest first. -/
  heapLive : List Block
  /-- `HIST` (R46): the event history, oldest first. -/
  hist : List Event
  /-- The commands presented and held (R251, R264). -/
  waiting : List Presented
  /-- The operands of the command in progress (R160, R180: `pin`, `N`, `data`), carried by value (D28). -/
  call : Call
  /-- The pixel block `px` of an INITIALIZE between its two allocations (R143, R144). -/
  newPx : Option Memory
  /-- The build's parameters (R10, R11, R48): no step writes them. -/
  par : Params
  /-- The host and the oracles (R48). -/
  env : Env
deriving DecidableEq, Repr

/-- How the machine can stop for want of any step. -/
inductive Fault where
  /-- Raised by `step` when `PHASE = FAULT` and the host does nothing more: no command is accepted in `FAULT` and only reset
  leaves it (R239, R251, U4: "no step is enabled but reset"). Safe: nothing is claimed of such a run. -/
  | haltedInFault
deriving DecidableEq, Repr

/-- What the model takes no step on. -/
inductive Refusal where
  /-- Raised by `exec` alone, for an instruction that has no meaning yet: none is left. Safe. -/
  | notModelled (mnemonic : String)
  /-- Raised by the command port when the words presented are reserved (R105, U8: "refuse"). Safe. -/
  | reservedCommand (why : Reject)
  /-- Raised by an access to register 13 or above (R33, U8: "refuse"). Safe. -/
  | reservedRegister (n : Nat)
  /-- Raised when TX meets a reserved descriptor, one with a wrong level or a zero duration (R106: "what TX would do with one
  is outside this spec"). The core never writes one. Safe. -/
  | descriptorOutsideSpec
deriving DecidableEq, Repr

/-! ## Reset -/

/-- A command with no argument: what the working operands hold before any command (log entry 5). -/
def Call.none : Call := { argc := 0, tag0 := 0, tag1 := 0, arg0 := 0, arg1 := 0, data := [] }

/-- A silent host and oracles with no answer written down. -/
def Env.silent : Env :=
  { inputs := [], allocAnswers := [], txAnswers := [], txMoves := [], picks := [], draws := 0 }

/-- The machine right after reset (R47, R261). The latches, which R47 leaves unspecified, are zero by log entry 5. -/
def State.reset : State :=
  { slot := none, phase := .idle, faultCause := none, cmd := 0, arg0 := 0, arg1 := 0, result := none,
    txInflight := none, txSignal := none, waitTimer := 0, txCfg := none, txInstalled := 0, lineLow := false,
    heapLive := [], hist := [], waiting := [], call := Call.none, newPx := none,
    par := Config.params, env := Env.silent }

end Sys2Proof.Machine
end

