-- ==== Sys2Proof/Machine/Ops.lean ====
section
/-! DEFINITION. The named operations over memory, the history, the allocator and the sequencer that every meaning is written
in: sparse cells, `emit`, `draw`, `alloc`, `free`, `respond` (R221) and taking the fatal exception, `raiseFatal` (R231). -/

namespace Sys2Proof

/-! ## The wait bound -/

/-- The numerator of `WAIT_TIMEOUT_TICKS = WAIT_TIMEOUT_MS * 1_000_000 / TICK_NS` (R11), an exact quotient. -/
def Params.boundNum (p : Params) : Nat := p.waitNum * 1000000 * p.tickDen
/-- Its denominator. -/
def Params.boundDen (p : Params) : Nat := p.waitDen * p.tickNum

/-- The first whole tick at or past the bound: `WAIT_TIMER >= WAIT_TIMEOUT_TICKS` from this count on (R204). -/
def Params.waitTicks (p : Params) : Nat := (p.boundNum + p.boundDen - 1) / p.boundDen

/-- The last whole tick within the bound: `dur(seq) <= WAIT_TIMEOUT_TICKS` up to this count (R206). Where the quotient is a
whole number the two are one. -/
def Params.waitLast (p : Params) : Nat := p.boundNum / p.boundDen

end Sys2Proof

namespace Sys2Proof.Machine

/-! ## Sparse cells: a list of (index, value) pairs, strictly rising -/

/-- The value listed at an index. -/
def cellAt {α : Type} : List (Nat × α) → Nat → Option α
  | [], _ => none
  | (a, v) :: m, k => if a = k then some v else cellAt m k

/-- List a value at an index, keeping the list rising. -/
def putCell {α : Type} : List (Nat × α) → Nat → α → List (Nat × α)
  | [], k, v => [(k, v)]
  | (a, x) :: m, k, v =>
    if k < a then (k, v) :: (a, x) :: m
    else if k = a then (k, v) :: m
    else (a, x) :: putCell m k v

/-- Remove an index from the list. -/
def dropCell {α : Type} : List (Nat × α) → Nat → List (Nat × α)
  | [], _ => []
  | (a, x) :: m, k => if a = k then m else (a, x) :: dropCell m k

/-- The indices are strictly rising and none is below `lo`. -/
def risingFrom {α : Type} : Nat → List (Nat × α) → Bool
  | _, [] => true
  | lo, (a, _) :: m => decide (lo ≤ a) && risingFrom (a + 1) m

/-- Every index listed is below `hi`. -/
def cellsBelow {α : Type} (hi : Nat) (m : List (Nat × α)) : Bool := m.all fun c => decide (c.1 < hi)

/-- What a pixel-buffer cell that nothing has written holds: 0, by "zero-initialized" (R24, R143). -/
def unwrittenByte : Byte := 0

/-- `PX[i]` (R15). -/
def Memory.read (m : Memory) (i : Nat) : Byte := (cellAt m i).getD unwrittenByte

/-- `PX[i] <- b` (R15), keeping the one canonical form. -/
def Memory.write (m : Memory) (i : Nat) (b : Byte) : Memory :=
  if b = unwrittenByte then dropCell m i else putCell m i b

/-- The canonical form: strictly rising, and no entry that an unlisted index would read as. -/
def Memory.wf (m : Memory) : Bool := risingFrom 0 m && m.all fun c => decide (c.2 ≠ unwrittenByte)

/-- `MemRead(PX, i, n)` (R15). -/
def Memory.readN (m : Memory) : Nat → Nat → List Byte
  | _, 0 => []
  | i, n + 1 => m.read i :: Memory.readN m (i + 1) n

/-- `MemWrite(PX, i, len(bs), bs)` (R15). -/
def Memory.writeN (m : Memory) : Nat → List Byte → Memory
  | _, [] => m
  | i, b :: bs => Memory.writeN (m.write i b) (i + 1) bs

/-- `MemWrite(PL, j, len(ps), ps)` (R15). -/
def Pulses.writeN (m : Pulses) : Nat → List Pd → Pulses
  | _, [] => m
  | j, p :: ps => Pulses.writeN (putCell m j p) (j + 1) ps

/-- A pixel buffer just allocated: every cell 0 (R143). -/
def Memory.zeroed : Memory := []

/-- A pulse buffer just allocated: no cell holds a value (R25, R144). -/
def Pulses.fresh : Pulses := []

/-! ## Sizes (R104, R141): exact, never wrapping -/

/-- `px_cells = 3 * N`. -/
def pxCells (n : Nat) : Nat := 3 * n
/-- `pl_cells = 24 * N`. -/
def plCells (n : Nat) : Nat := 24 * n

/-! ## The history and the free draws -/

/-- `emit E` (R15, R46). -/
def State.emit (e : Event) (s : State) : State := { s with hist := s.hist ++ [e] }

/-- `PHASE <- p` (R15, R30). -/
def State.goto (p : Phase) (s : State) : State := { s with phase := p }

/-- The answer of `AllocOracle` to the request now made (R142): the next one written down, or a free one. -/
def State.allocAnswer (s : State) : Bool :=
  match s.env.allocAnswers with
  | a :: _ => a
  | [] => Config.allocAnswer s.env.draws

/-- The oracle has answered: its next answer is another. -/
def State.allocAnswered (s : State) : State :=
  match s.env.allocAnswers with
  | _ :: rest => { s with env := { s.env with allocAnswers := rest } }
  | [] => { s with env := { s.env with draws := s.env.draws + 1 } }

/-- The answer of `TxOracle` to the configure, install or submit request now made (R206). -/
def State.txAnswer (s : State) : Bool :=
  match s.env.txAnswers with
  | a :: _ => a
  | [] => Config.txAnswer s.env.draws

/-- TX has answered: its next answer is another. -/
def State.txAnswered (s : State) : State :=
  match s.env.txAnswers with
  | _ :: rest => { s with env := { s.env with txAnswers := rest } }
  | [] => { s with env := { s.env with draws := s.env.draws + 1 } }

/-- A free number as a move of TX: every move is some number's. -/
def TxMove.ofNat : Nat → TxMove
  | 0 => .go
  | 1 => .fail
  | k + 2 => .pause k

/-- What TX does next with the frame in flight (R205, R206). -/
def State.txMove (s : State) : TxMove :=
  match s.env.txMoves with
  | m :: _ => m
  | [] => TxMove.ofNat (Config.txMove s.env.draws)

/-- TX has moved. -/
def State.txMoved (s : State) : State :=
  match s.env.txMoves with
  | _ :: rest => { s with env := { s.env with txMoves := rest } }
  | [] => { s with env := { s.env with draws := s.env.draws + 1 } }

/-- Which held command is taken next: any index of the list (R251). -/
def State.pickIndex (s : State) : Nat :=
  (match s.env.picks with
   | k :: _ => k
   | [] => Config.pick s.env.draws) % s.waiting.length

/-- The choice is made. -/
def State.picked (s : State) : State :=
  match s.env.picks with
  | _ :: rest => { s with env := { s.env with picks := rest } }
  | [] => { s with env := { s.env with draws := s.env.draws + 1 } }

/-- A free value has been used up: the next one is another. -/
def State.drawn (s : State) : State := { s with env := { s.env with draws := s.env.draws + 1 } }

/-! ## The allocator (R142, R146) -/

/-- `alloc(kind, cells)` once the oracle's answer is known: the ledger and the event. -/
def State.alloc (kind : BlockKind) (cells : Nat) (ok : Bool) (s : State) : State :=
  State.emit (.alloc kind cells ok)
    { s.allocAnswered with heapLive := if ok then s.heapLive ++ [⟨kind, cells⟩] else s.heapLive }

/-- `free(block)`: it cannot fail. -/
def State.free (b : Block) (s : State) : State :=
  State.emit (.free b.kind b.cells) { s with heapLive := s.heapLive.erase b }

/-! ## The session -/

/-- `N`: the LED count of the live session. With no session there is no buffer and no cell of one (log entry 11). -/
def State.ledCount (s : State) : Nat :=
  match s.slot with
  | some x => x.ledCount
  | none => 0

/-- The pin of the live session. With no session it is `any value` (R39, U11). -/
def State.pin (s : State) : Int :=
  match s.slot with
  | some x => x.pin
  | none => (Config.freeWord s.env.draws).toInt

/-- `PX[i]` of the live session, where the cell exists (R62, R71). -/
def State.pxAt (s : State) (i : Nat) : Option Byte :=
  match s.slot with
  | some x => if i < pxCells x.ledCount then some (x.px.read i) else none
  | none => none

/-- `PL[j]` of the live session, where the cell exists and holds a value (R25, R63). -/
def State.plAt (s : State) (j : Nat) : Option Pd :=
  match s.slot with
  | some x => if j < plCells x.ledCount then cellAt x.pl j else none
  | none => none

/-- `PL[j]` as TX reads it: `any value` where the cell holds none (U7). -/
def State.plRead (s : State) (j : Nat) : Pd :=
  (s.plAt j).getD ⟨Config.freeHigh s.env.draws j, Config.freeLow s.env.draws j⟩

/-- `MemRead(PL, j, n)` (R15). -/
def State.plReadN (s : State) : Nat → Nat → List Pd
  | _, 0 => []
  | j, n + 1 => s.plRead j :: State.plReadN s (j + 1) n

/-- Replace the live session's buffers; with no session there is nothing to replace. -/
def State.onSession (f : Session → Session) (s : State) : State := { s with slot := s.slot.map f }

/-! ## The end of a command -/

/-- `respond(code)` (R221): the result latch, the event, back to `IDLE`. -/
def State.respond (code : ResultCode) (s : State) : State :=
  State.goto .idle (State.emit (.result code) { s with result := some code })

/-- `raise Fatal(cause)` (R231): taking the fatal exception. The cause is latched, the sequencer enters `FAULT`, the event is
recorded; nothing is saved, no result is written, and everything else stays as the failing step left it. The return from it
is reset alone (R239; `State.rst`). -/
def State.raiseFatal (cause : FatalCause) (s : State) : State :=
  State.emit (.fatal cause) (State.goto .fault { s with faultCause := some cause })

/-- Reset (R260, R261): every item of R20 takes its reset value, and a held command is dropped; the only way out of `FAULT`
(R239). The build's parameters are no state and stay (R40, R48); so do the host and the oracles, which are outside. -/
def State.rst (s : State) : State := { State.reset with par := s.par, env := s.env }

/-! ## The command port (R251) -/

/-- A command presented while the core cannot take it is held: it has no step. -/
def State.hold (p : Presented) (s : State) : State := { s with waiting := s.waiting ++ [p] }

/-- A command is accepted: the event, the latches `CMD`, `ARG0`, `ARG1`, and the phase of its check. -/
def State.accept (p : Presented) (c : Call) (e : Command) (check : Phase) (s : State) : State :=
  State.goto check
    (State.emit (.cmd e) { s with cmd := p.cmd, arg0 := p.arg0, arg1 := p.arg1, call := c })

end Sys2Proof.Machine
end

