-- ==== Sys2Proof/Machine/Operands.lean ====
section
/-! DEFINITION. Operand assembly (30_encoding.md R94, R95): the argument list a host command carries, and what the two
commands take from it. -/

namespace Sys2Proof.Machine

/-- How many bytes of `DATA[0 .. L)` the host announced and did not offer. -/
def callMissing (c : Call) : Nat := c.dataLen - c.data.length

/-- The call with all `L` bytes of its `DATA`: those offered, then, for those that are not, any values (log entry 14). -/
def callFilled (draw : Nat) (c : Call) : Call :=
  { c with data := c.data ++ (List.range (callMissing c)).map (Config.freeByte draw) }

/-- The free values of a short `DATA` are used up. -/
def State.dataDrawn (c : Call) (s : State) : State := if callMissing c = 0 then s else s.drawn

/-- `val(j)` of R95 for one argument: its tag, its register, the host's bytes. A tag of 0 at a position that is present reads
as `other` (R94). -/
def argVal (tag : Nibble) (arg : Word) (data : List Byte) : Val :=
  if tag = tagInt then .int arg.toInt
  else if tag = tagBytes then .bytes (data.take arg.toNat)
  else .other

/-- The argument list (R96): two positions have a tag, the rest are present and nothing more (R93). -/
def callArgs (c : Call) : List Val :=
  match c.argc.toNat with
  | 0 => []
  | 1 => [argVal c.tag0 c.arg0 c.data]
  | k + 2 => argVal c.tag0 c.arg0 c.data :: argVal c.tag1 c.arg1 c.data :: List.replicate k .other

/-- The abstract command of R91, which is what the event `Cmd(c)` records. -/
def callCommand (op : Operation) (c : Call) : Command := { op := op, args := callArgs c }

/-- The checks of `INIT_CHECK` in their order (R161, R162, R237): count, then types, then `led_count <= 0`. `none` is a call
that passes. -/
def initializeError (args : List Val) : Option ResultCode :=
  match args with
  | [.int _, .int n] => if n ≤ 0 then some .wrongArgType else none
  | [_, _] => some .wrongArgType
  | _ => some .wrongArgCount

/-- The checks of `SHOW_CHECK` in their order (R181, R182, R237): count, type, precondition. -/
def showError (args : List Val) (live : Bool) : Option ResultCode :=
  match args with
  | [.bytes _] => if live then none else some .notInitialized
  | [_] => some .wrongArgType
  | _ => some .wrongArgCount

/-- `pin`: the first argument of the INITIALIZE in progress (R22, R160). -/
def State.callPin (s : State) : Int := s.call.arg0.toInt

/-- `N`: the second argument of the INITIALIZE in progress (R23, R160), which its check has found positive (R162). -/
def State.callLeds (s : State) : Nat := s.call.arg1.toInt.toNat

/-- `DATA` of the SHOW in progress, its `L` bytes (R61, R95). -/
def State.showData (s : State) : List Byte := s.call.data.take s.call.arg0.toNat

/-- `copy_len = min(L, 3 * N)` (R104, R183). -/
def State.copyLen (s : State) : Nat := min s.showData.length (pxCells s.ledCount)

/-- `tx_count = 8 * copy_len` (R104). -/
def State.txCount (s : State) : Nat := 8 * s.copyLen

/-- The record TX is configured with for a pin (R103, R167). -/
def TxCfg.forPin (pin : Int) : TxCfg :=
  { pin := pin, mode := .transmit, idleOutput := .disabledToLow, carrier := .none, loop := .off }

end Sys2Proof.Machine
end

