-- ==== Sys2Proof/Machine/Flags.lean ====
section
/-! DEFINITION. The status flags (10_state.md R32), the numeric codes (R30, R37, R98), and the register view built from them
(R33 to R40). -/

namespace Sys2Proof.Machine

/-! ## The three flags, each a function of other state (R32) -/

/-- `LIVE = (SLOT != none)`. -/
def State.live (s : State) : Bool := s.slot.isSome

/-- `BUSY = (PHASE not in {IDLE, FAULT})`. -/
def State.busy (s : State) : Bool := s.phase ≠ .idle && s.phase ≠ .fault

/-- `FAULT = (PHASE = FAULT)`; also the level output `fatal` (R92, R231). -/
def State.faulted (s : State) : Bool := s.phase = .fault

/-- `cmd_ready = 1` iff `PHASE = IDLE` (R92). -/
def State.cmdReady (s : State) : Bool := s.phase = .idle

/-! ## Codes -/

/-- The code of a phase (R30). -/
def Phase.code : Phase → Nat
  | .idle => 0
  | .initCheck => 1
  | .initRelease => 2
  | .initAllocPx => 3
  | .initAllocPl => 4
  | .initTxConfigure => 5
  | .initTxInstall => 6
  | .showCheck => 7
  | .showCopy => 8
  | .showEncode => 9
  | .showSubmit => 10
  | .showWait => 11
  | .fault => 15

/-- The code of a result (R98, R220). -/
def ResultCode.code : ResultCode → Nat
  | .ok => 0
  | .wrongArgCount => 1
  | .wrongArgType => 2
  | .outOfMemory => 3
  | .notInitialized => 4

/-- The code of a fatal cause (R37, R230). -/
def FatalCause.code : FatalCause → Nat
  | .txConfigure => 1
  | .txInstall => 2
  | .txSubmit => 3
  | .txWait => 4
  | .txWaitTimeout => 5

/-- The stored field `FAULT_CAUSE` (R37); also the output `fatal_cause` (R92). -/
def State.faultCauseCode (s : State) : Nat :=
  match s.faultCause with
  | none => 0
  | some c => c.code

/-! ## The register view -/

/-- Register 3 `STATUS` (R37): `[0] LIVE`, `[1] BUSY`, `[2] FAULT`, `[7:4] PHASE`, `[10:8] FAULT_CAUSE`, the rest 0. -/
def State.statusWord (s : State) : Word :=
  BitVec.ofNat 21 0 ++ (BitVec.ofNat 3 s.faultCauseCode ++ (BitVec.ofNat 4 s.phase.code ++
    (0#1 ++ (BitVec.ofBool s.faulted ++ (BitVec.ofBool s.busy ++ BitVec.ofBool s.live)))))

/-- Register 4 `RESULT` (R38): `[3:0] CODE`, `[4] VALID`, the rest 0. -/
def State.resultWord (s : State) : Word :=
  match s.result with
  | none => 0
  | some c => BitVec.ofNat 27 0 ++ (1#1 ++ BitVec.ofNat 4 c.code)

/-- `any value`: what a read returns where the spec gives it none, another one at each read (R33, R39, U11). -/
def State.anyWord (s : State) : Word × State := (Config.freeWord s.env.draws, s.drawn)

/-- The level of the output line as anyone looks at it (R200): low where R207 and R208 hold it low, and any value, another one
at each look, where they do not (R262, U11). -/
def State.readLine (s : State) : Level × State :=
  if s.lineLow then (.low, s) else (if Config.freeHighLevel s.env.draws then .high else .low, s.drawn)

/-- `TRESET` as register 11 reads it (R40): exact where it fits the register. -/
def tresetReading (treset : Nat) : Word :=
  if treset < 4294967296 then BitVec.ofNat 32 treset else Config.tresetReading treset

/-- `WAIT_TIMEOUT_TICKS` as register 12 reads it (R40): saturated if larger than the register, exact where it is a whole
number. The spec does not say how a quotient that is none reads: a value of the build (log entry 4). -/
def waitReading (p : Params) : Word :=
  if 4294967295 * p.boundDen < p.boundNum then 4294967295
  else if p.boundNum % p.boundDen = 0 then BitVec.ofNat 32 (p.boundNum / p.boundDen)
  else Config.waitReading p.boundNum p.boundDen

/-- A read of register `n` by the host (R33): the value, and the state, in which no architectural item has changed. A
write-only register, and the session's fields while there is no session, read as any value; a register that does not exist
is refused. -/
def readReg (n : Nat) (s : State) : Host.Outcome (Word × State) Fault Refusal :=
  match n with
  | 0 => .next s.anyWord
  | 1 => .next s.anyWord
  | 2 => .next s.anyWord
  | 3 => .next (s.statusWord, s)
  | 4 => .next (s.resultWord, s)
  | 5 =>
    match s.slot with
    | some x => .next (BitVec.ofInt 32 x.pin, s)
    | none => .next s.anyWord
  | 6 =>
    match s.slot with
    | some x => .next (BitVec.ofNat 32 x.ledCount, s)
    | none => .next s.anyWord
  | 7 => .next (s.par.tp.t0h.setWidth 32, s)
  | 8 => .next (s.par.tp.t0l.setWidth 32, s)
  | 9 => .next (s.par.tp.t1h.setWidth 32, s)
  | 10 => .next (s.par.tp.t1l.setWidth 32, s)
  | 11 => .next (tresetReading s.par.tp.treset, s)
  | 12 => .next (waitReading s.par, s)
  | n => .refused (.reservedRegister n)

end Sys2Proof.Machine
end

