-- ==== Sys2Proof/Machine/Encoder.lean ====
section
/-! DEFINITION. The Bit Encoder (40_bit_encoder.md): ENC.BIT, ENC.BYTE, ENC.SEQ, pure functions of the Timing Profile; the
duration of a sequence (R128); the waveform of a frame (44_tx_boundary.md R207). -/

namespace Sys2Proof.Machine

/-- ENC.BIT (R120). -/
def encBit (tp : TimingProfile) (b : Bool) : Pd := if b then tp.symbol1 else tp.symbol0

/-- ENC.BYTE (R121): most significant bit first. -/
def encByte (tp : TimingProfile) (x : Byte) : List Pd :=
  [encBit tp (x.getLsbD 7), encBit tp (x.getLsbD 6), encBit tp (x.getLsbD 5), encBit tp (x.getLsbD 4),
   encBit tp (x.getLsbD 3), encBit tp (x.getLsbD 2), encBit tp (x.getLsbD 1), encBit tp (x.getLsbD 0)]

/-- ENC.SEQ, the source's `encode` (R122): bytes in ascending index order. -/
def encSeq (tp : TimingProfile) : List Byte → List Pd
  | [] => []
  | x :: rest => encByte tp x ++ encSeq tp rest

/-- The duration of one descriptor, in ticks. -/
def Pd.ticks (d : Pd) : Nat := d.high.toNat + d.low.toNat

/-- `dur(seq)` (R128). -/
def dur : List Pd → Nat
  | [] => 0
  | d :: ds => Pd.ticks d + dur ds

/-- The line while a sequence is driven (R207): for each descriptor high, then low, with no gap. -/
def waveform : List Pd → List (Level × Nat)
  | [] => []
  | d :: ds => (.high, d.high.toNat) :: (.low, d.low.toNat) :: waveform ds

end Sys2Proof.Machine
end

