-- ==== Sys2Proof/Machine/Wire.lean ====
section
/-! DEFINITION. The transmitter's own steps while a frame is in flight (44_tx_boundary.md R205), and the meanings of the two
wire symbols SYM0 and SYM1, which are what TX executes (R101, R120, R207). -/

namespace Sys2Proof.Machine

/-- TX drives one descriptor onto the line (R207): its high interval, then its low one. Its ticks pass on the wait timer
(R246), one more descriptor of the frame is done, and the line is left low. TX has a step only while a frame is in flight and
part of it is left (R205). -/
def State.drive (d : Pd) (s : State) : State :=
  match s.txInflight with
  | some f =>
    if f.driven < f.seq.length then
      { s with
        txInflight := some { f with driven := f.driven + 1 }
        waitTimer := s.waitTimer + Pd.ticks d
        lineLow := true }
    else s
  | none => s

/-- SYM0: the descriptor `(T0H, T0L)` of a clear bit (R120). -/
def execSym0 (s : State) : Host.Outcome State Fault Refusal := .next (s.drive (encBit s.par.tp false))

/-- SYM1: the descriptor `(T1H, T1L)` of a set bit (R120). -/
def execSym1 (s : State) : Host.Outcome State Fault Refusal := .next (s.drive (encBit s.par.tp true))

/-- **complete** (R205 a): the whole of `seq` has been driven; the event `Wire`, nothing in flight, the signal `done`. -/
def State.txComplete (f : Frame) (s : State) : State :=
  State.emit (.wire f.pin f.seq) { s with txInflight := none, txSignal := some .done, lineLow := true }

/-- **fail** (R205 b): the signal `err`; what was on the line, and what is, is unspecified (U11). -/
def State.txFail (s : State) : State :=
  { s with txInflight := none, txSignal := some .err, lineLow := false }

/-- TX is inside its frame, or has stopped there: between the first descriptor and the last there is no gap (R207). -/
def Frame.opened (f : Frame) : Bool := f.cut || decide (0 < f.driven ∧ f.driven < f.seq.length)

/-- Time passes and TX does nothing (R205 c, and any delay of its own), up to the bound at most, where the wait ends (R286).
Before the first descriptor and after the last the line is low the while; inside the frame TX has stopped, and will not
complete it. -/
def State.txPause (f : Frame) (ticks : Nat) (s : State) : State :=
  { s with
    txInflight := some { f with cut := f.opened }
    waitTimer := min (s.waitTimer + (ticks + 1)) s.par.waitTicks
    lineLow := s.lineLow && !f.opened }

/-- TX begins a descriptor that would end past the bound: the wait ends first, with the frame unfinished (R205 c, R246). -/
def State.txOverrun (f : Frame) (s : State) : State :=
  { s with txInflight := some { f with cut := true }, waitTimer := s.par.waitTicks, lineLow := false }

/-- Whether TX, moving as `m`, still acts before the core's wait has run out. A signal given at the bound is in time, since
`done` and `err` come before `timeout` (R204, R241); anything else must begin before it. -/
def State.txInTime (f : Frame) (m : TxMove) (s : State) : Bool :=
  match m with
  | .fail => s.waitTimer ≤ s.par.waitLast
  | .go =>
    if f.cut = true ∨ f.driven < f.seq.length then s.waitTimer < s.par.waitTicks else s.waitTimer ≤ s.par.waitLast
  | .pause _ => s.waitTimer < s.par.waitTicks

end Sys2Proof.Machine
end

