-- ==== Sys2Proof/Machine/Buffers.lean ====
section
/-! DEFINITION. The Pulse Buffer Manager's micro-operations (41_buffer_manager.md): BUF.RELEASE, BUF.ALLOC_PX, BUF.ALLOC_PL,
BUF.COPY, BUF.FILL. -/

namespace Sys2Proof.Machine

/-- Step 1 of `initialize` (R146, R163): both blocks of a live session are freed, `PX` first, and the slot is emptied. TX is not
touched: its record and the line stay as the session left them (R164, R165). -/
def State.release (s : State) : State :=
  match s.slot with
  | some x =>
    { State.free ⟨.pl, plCells x.ledCount⟩ (State.free ⟨.px, pxCells x.ledCount⟩ s) with
      slot := none }
  | none => s

/-- BUF.RELEASE (R146). -/
def execBufRelease (s : State) : Host.Outcome State Fault Refusal :=
  .next (s.release.goto .initAllocPx)

/-- BUF.ALLOC_PX (R143): `3N` bytes, every one 0; on `fail` the result `OUT_OF_MEMORY`. -/
def execBufAllocPx (s : State) : Host.Outcome State Fault Refusal :=
  .next
    (if s.allocAnswer then
      { State.alloc .px (pxCells s.callLeds) true s with newPx := some Memory.zeroed, phase := .initAllocPl }
    else
      State.respond .outOfMemory (State.alloc .px (pxCells s.callLeds) false s))

/-- BUF.ALLOC_PL (R144, R145, R166): `24N` descriptors with no value, and the session is live; on `fail` the pixel block of
the same call is freed and the result is `OUT_OF_MEMORY`. -/
def execBufAllocPl (s : State) : Host.Outcome State Fault Refusal :=
  .next
    (if s.allocAnswer then
      { State.alloc .pl (plCells s.callLeds) true s with
        slot := some
          { pin := s.callPin, ledCount := s.callLeds, px := s.newPx.getD Memory.zeroed, pl := Pulses.fresh }
        newPx := none
        phase := .initTxConfigure }
    else
      State.respond .outOfMemory
        { State.free ⟨.px, pxCells s.callLeds⟩ (State.alloc .pl (plCells s.callLeds) false s) with newPx := none })

/-- BUF.COPY (R147, R183, R184): the first `copy_len` bytes of `DATA`; the other cells are not written. -/
def execBufCopy (s : State) : Host.Outcome State Fault Refusal :=
  .next
    (State.goto .showEncode
      (s.onSession fun x => { x with px := Memory.writeN x.px 0 (s.showData.take s.copyLen) }))

/-- BUF.FILL (R148, R185): ENC.SEQ over exactly the first `copy_len` bytes of `PX`, into the first `8 * copy_len` cells of
`PL`; the other cells are not written. -/
def execBufFill (s : State) : Host.Outcome State Fault Refusal :=
  .next
    (State.goto .showSubmit
      (s.onSession fun x =>
        { x with pl := Pulses.writeN x.pl 0 (encSeq s.par.tp (Memory.readN x.px 0 s.copyLen)) }))

end Sys2Proof.Machine
end

