-- ==== Sys2Proof/Machine/Boundary.lean ====
section
/-! DEFINITION. The four requests the core makes of the transmitter (44_tx_boundary.md R201 to R204): TX.CONFIGURE,
TX.INSTALL, TX.SUBMIT, TX.WAIT. A request that names the session's pin or reads `PL` uses up a free draw, so that no two reads
of a value the spec leaves open need agree. -/

namespace Sys2Proof.Machine

/-- TX.CONFIGURE (R201, R167). On `ok` the record replaces the last one whole; the line of the pin it names is low if TX has
been installed before, and otherwise not known before the install (R208, D9); the line of the last session's pin is no longer
recorded, that pin being abandoned (U11). On `err` TX stays as it was, its record (R232) and its line, low with TX installed
before (R208, D9; DEDUCED, log entry 8). -/
def execTxConfigure (s : State) : Host.Outcome State Fault Refusal :=
  .next
    (if s.txAnswer then
      State.goto .initTxInstall
        (State.emit (.txConfigure (.forPin s.pin) true)
          { s.txAnswered.drawn with txCfg := some (.forPin s.pin), lineLow := decide (1 ≤ s.txInstalled) })
    else
      State.raiseFatal .txConfigure
        (State.emit (.txConfigure (.forPin s.pin) false) s.txAnswered.drawn))

/-- TX.INSTALL (R202, R168). From a successful install on, the line is low while nothing is in flight (R208). -/
def execTxInstall (s : State) : Host.Outcome State Fault Refusal :=
  .next
    (if s.txAnswer then
      State.respond .ok
        (State.emit (.txInstall true)
          { s.txAnswered with txInstalled := s.txInstalled + 1, lineLow := true })
    else
      State.raiseFatal .txInstall (State.emit (.txInstall false) s.txAnswered))

/-- The sequence SHOW submits: `PL[0 .. 8 * copy_len)` (R186, R203). -/
def State.submission (s : State) : List Pd := s.plReadN 0 s.txCount

/-- The line TX would send a frame on: `TX_CFG.pin` (R203). Unprogrammed, it is any value. -/
def State.txPin (s : State) : Int :=
  match s.txCfg with
  | some c => c.pin
  | none => (Config.freeWord s.env.draws).toInt

/-- TX.SUBMIT (R203, R186): non-looping; on `ok` the frame is in flight, the wait timer starts, and the signals of an earlier
frame are cleared (R241). -/
def execTxSubmit (s : State) : Host.Outcome State Fault Refusal :=
  .next
    (if s.txAnswer then
      State.goto .showWait
        (State.emit (.txSubmit s.submission true)
          { s.txAnswered.drawn with
            txInflight := some { pin := s.txPin, seq := s.submission, driven := 0, cut := false }
            txSignal := none
            waitTimer := 0 })
    else
      State.raiseFatal .txSubmit (State.emit (.txSubmit s.submission false) s.txAnswered.drawn))

/-- TX.WAIT (R204, R187): `done` before everything, then `err`, then the bound; while none of the three is true the core is
blocked and nothing changes. What was on the line of a frame that timed out is unspecified (R205 c). -/
def execTxWait (s : State) : Host.Outcome State Fault Refusal :=
  .next
    (match s.txSignal with
     | some .done => State.respond .ok (State.emit (.txWait .done) s)
     | some .err => State.raiseFatal .txWait (State.emit (.txWait .err) s)
     | none =>
       if s.par.waitTicks ≤ s.waitTimer then
         State.raiseFatal .txWaitTimeout (State.emit (.txWait .timeout) { s with lineLow := false })
       else s)

end Sys2Proof.Machine
end

