-- ==== Sys2Proof/Machine/Commands.lean ====
section
/-! DEFINITION. The two host commands (42_initialize.md R160 to R162, 43_show.md R180 to R182). A command is accepted in
`IDLE` (R251), its arguments are checked in `INIT_CHECK` or `SHOW_CHECK`, and the numbered steps that follow are the
micro-operations of Buffers.lean and Boundary.lean, one a step of the sequencer (R31). In any other phase the command is held
(R251). A command accepted has all the bytes it announces, whatever the host offers (log entry 14). -/

namespace Sys2Proof.Machine

/-- INITIALIZE (R160): acceptance (R251), then the argument check (R161, R162), which responds or goes on to step 1. -/
def execHostInitialize (c : Call) (s : State) : Host.Outcome State Fault Refusal :=
  match s.phase with
  | .idle =>
    .next
      (State.accept (c.present opcInitialize) (callFilled s.env.draws c)
        (callCommand .hostInitialize (callFilled s.env.draws c)) .initCheck (s.dataDrawn c))
  | .initCheck =>
    .next
      (match initializeError (callArgs c) with
       | some code => s.respond code
       | none => s.goto .initRelease)
  | _ => .next (s.hold (c.present opcInitialize))

/-- SHOW (R180): acceptance (R251), then the argument check and the precondition (R181, R182), which respond or go on to
step 1. -/
def execHostShow (c : Call) (s : State) : Host.Outcome State Fault Refusal :=
  match s.phase with
  | .idle =>
    .next
      (State.accept (c.present opcShow) (callFilled s.env.draws c) (callCommand .hostShow (callFilled s.env.draws c)) .showCheck
        (s.dataDrawn c))
  | .showCheck =>
    .next
      (match showError (callArgs c) s.live with
       | some code => s.respond code
       | none => s.goto .showCopy)
  | _ => .next (s.hold (c.present opcShow))

end Sys2Proof.Machine
end

