-- ==== Sys2Proof/Machine/Dispatch.lean ====
section
/-! DEFINITION. One arm per operation of the opcode table, each a direct call of its meaning. -/

namespace Sys2Proof.Machine

def exec (i : Instr) (s : State) : Host.Outcome State Fault Refusal :=
  match i with
  -- the host's commands
  | .hostInitialize c => Sys2Proof.Machine.execHostInitialize c s
  | .hostShow c => Sys2Proof.Machine.execHostShow c s
  -- the wire symbols
  | .sym0 => Sys2Proof.Machine.execSym0 s
  | .sym1 => Sys2Proof.Machine.execSym1 s
  -- the sequencer's micro-operations
  | .bufRelease => Sys2Proof.Machine.execBufRelease s
  | .bufAllocPx => Sys2Proof.Machine.execBufAllocPx s
  | .bufAllocPl => Sys2Proof.Machine.execBufAllocPl s
  | .txConfigure => Sys2Proof.Machine.execTxConfigure s
  | .txInstall => Sys2Proof.Machine.execTxInstall s
  | .bufCopy => Sys2Proof.Machine.execBufCopy s
  | .bufFill => Sys2Proof.Machine.execBufFill s
  | .txSubmit => Sys2Proof.Machine.execTxSubmit s
  | .txWait => Sys2Proof.Machine.execTxWait s

end Sys2Proof.Machine
end

