-- ==== Sys2Proof/Machine/Sequencer.lean ====
section
/-! DEFINITION. How the next operation is found and run, agent by agent: the host at the command port and the registers
(60_exceptions.md R251, R252; 10_state.md R33), the core by its sequencer (R30, R31), TX by the descriptors of the frame in
flight (44_tx_boundary.md R205, R211). -/

namespace Sys2Proof.Machine

/-! ## The host -/

/-- The core takes a command from the port: the words are decoded and run; reserved words are refused (R96, R105). -/
def takeCommand (p : Presented) (s : State) : Host.Outcome State Fault Refusal :=
  match decode s.par.tp (.cmd p) with
  | .ok i => exec i s
  | .error why => .refused (.reservedCommand why)

/-- A command is presented (R251): taken in `IDLE`, held otherwise. Words that R105 reserves are held like any others and refused
only when they are taken, so never in `FAULT`: R105 and U8 say refuse, R251 and R34 say hold, and nothing says which comes first
(DESIGN CHOICE, log entry 25). -/
def presentCommand (p : Presented) (s : State) : Host.Outcome State Fault Refusal :=
  if s.phase = .idle then takeCommand p s else .next (s.hold p)

/-- A write of register `n` by the host (R33): `CMD` presents the command whose arguments stand in the latches (R34), `ARG0`
and `ARG1` are latches (R35, R36), a write to a read-only register is ignored, and the others do not exist (U8). A command held
carries the arguments that stood in the latches when `CMD` was written, so that later writes of `ARG0` and `ARG1` do not reach
it: R34 and R251 do not say (DESIGN CHOICE, log entry 12). -/
def writeReg (n : Nat) (w : Word) (data : List Byte) (s : State) : Host.Outcome State Fault Refusal :=
  match n with
  | 0 => presentCommand { cmd := w, arg0 := s.arg0, arg1 := s.arg1, data := data } s
  | 1 => .next { s with arg0 := w }
  | 2 => .next { s with arg1 := w }
  | k + 3 => if k + 3 ≤ 12 then .next s else .refused (.reservedRegister (k + 3))

/-- The inputs that are left once the first has been dealt with. -/
def State.nextInput (s : State) : State := { s with env := { s.env with inputs := s.env.inputs.tail } }

/-- The host moves. -/
def hostStep (s : State) : Host.Outcome State Fault Refusal :=
  match s.env.inputs with
  | .rst :: _ => .next s.nextInput.rst
  | .present p :: _ => presentCommand p s.nextInput
  | .write n w data :: _ => writeReg n w data s.nextInput
  | .quiet :: _ => .next s.nextInput
  | [] => .next s

/-! ## The core -/

/-- In `IDLE`, one of the held commands is taken, any of them (R251, R271); with none the core waits. -/
def takeWaiting (s : State) : Host.Outcome State Fault Refusal :=
  match s.waiting[s.pickIndex]? with
  | some p => takeCommand p { s.picked with waiting := s.waiting.eraseIdx s.pickIndex }
  | none => .next s

/-- The operation the sequencer's phase stands for: the command in progress in its check, a micro-operation by its code
(R97, R110), nothing in `IDLE` and `FAULT`. -/
def coreFetch (s : State) : Option Instr :=
  match s.phase with
  | .idle => none
  | .fault => none
  | .initCheck => some (.hostInitialize s.call)
  | .showCheck => some (.hostShow s.call)
  | p =>
    match decode s.par.tp (.uop (BitVec.ofNat 4 p.code)) with
    | .ok i => some i
    | .error _ => none

/-- The core moves. In `FAULT` it has no step (R239): while the host is still to act nothing changes, and when it is not the
machine has halted. -/
def coreStep (s : State) : Host.Outcome State Fault Refusal :=
  match coreFetch s with
  | some i => exec i s.nextInput
  | none =>
    if s.phase = .fault then
      if s.env.inputs = [] then .fault .haltedInFault else .next s.nextInput
    else takeWaiting s.nextInput

/-! ## The transmitter -/

/-- TX goes on with its frame: it reads the next descriptor in place (R80, R211), packed as its read port has it (R92), and
drives the symbol it is, where that ends within the bound. A descriptor in range that is neither symbol, which the core never
writes (R27), is driven all the same, by R207; a reserved one has no meaning (R106). Past the last one TX is complete
(R205 a). A frame in which TX has stopped does not go on. -/
def txGo (f : Frame) (s : State) : Host.Outcome State Fault Refusal :=
  if f.cut then .next (s.txMoved.txPause f 0)
  else if f.driven < f.seq.length then
    if s.waitTimer + Pd.ticks (s.plRead f.driven) ≤ s.par.waitLast then
      match decode s.par.tp (.pd (s.plRead f.driven).pack) with
      | .ok i => exec i s.txMoved.drawn
      | .error .notASymbol => .next (s.txMoved.drawn.drive (s.plRead f.driven))
      | .error _ => .refused .descriptorOutsideSpec
    else .next (s.txMoved.drawn.txOverrun f)
  else .next (s.txMoved.txComplete f)

/-- TX moves (R205). -/
def txStep (f : Frame) (s : State) : Host.Outcome State Fault Refusal :=
  match s.txMove with
  | .go => txGo f s
  | .fail => .next s.txMoved.txFail
  | .pause ticks => .next (s.txMoved.txPause f ticks)

/-! ## Who moves -/

/-- The frame TX is at work on: TX has steps of its own only while a frame is in flight and no signal has been given (R205),
and the core's wait leaves it the time (R204). -/
def State.txFrame (s : State) : Option Frame :=
  match s.phase, s.txSignal, s.txInflight with
  | .showWait, none, some f => if s.txInTime f s.txMove then some f else none
  | _, _, _ => none

/-- The host asks for something now. -/
def State.hostActs (s : State) : Bool :=
  match s.env.inputs with
  | [] => false
  | .quiet :: _ => false
  | .present _ :: _ => true
  | .write _ _ _ :: _ => true
  | .rst :: _ => true

/-- Which agent takes the next step (R200, R252): the host when it acts, else TX while it is at work on a frame, else the
core. -/
def State.mover (s : State) : Agent :=
  if s.hostActs then .host
  else
    match s.txFrame with
    | some _ => .tx
    | none => .core

/-- TX's turn: it moves with the frame it is at work on. -/
def txTurn (s : State) : Host.Outcome State Fault Refusal :=
  match s.txFrame with
  | some f => txStep f s.nextInput
  | none => coreStep s

/-! ## Placing one operation where the next step finds it -/

/-- The phase whose code a micro-operation is. -/
def phaseOfUop (code : Nat) : Option Phase :=
  match code with
  | 2 => some .initRelease
  | 3 => some .initAllocPx
  | 4 => some .initAllocPl
  | 5 => some .initTxConfigure
  | 6 => some .initTxInstall
  | 8 => some .showCopy
  | 9 => some .showEncode
  | 10 => some .showSubmit
  | 11 => some .showWait
  | _ => none

/-- A micro-operation: the sequencer stands at its code, the host is quiet, and no frame gives TX the next step. -/
def State.atUop (code : Nat) (s : State) : State :=
  match phaseOfUop code with
  | some p => { s with phase := p, txInflight := none, env := { s.env with inputs := [] } }
  | none => s

/-- A command: the core is idle and the host presents these words. -/
def State.atCommand (p : Presented) (s : State) : State :=
  { s with phase := .idle, env := { s.env with inputs := [.present p] } }

/-- A wire symbol: a one-LED session whose first pulse cell holds the descriptor, submitted and now to be driven, in a build
whose wait bound leaves the time for it. -/
def State.atSymbol (w : Word) (s : State) : State :=
  { s with
    phase := .showWait
    slot := some { pin := s.pin, ledCount := 1, px := Memory.zeroed, pl := [(0, Pd.unpack w)] }
    txInflight := some { pin := s.pin, seq := [Pd.unpack w], driven := 0, cut := false }
    txSignal := none
    waitTimer := 0
    par := { s.par with waitNum := s.par.waitDen * s.par.tickNum }
    env := { s.env with inputs := [], txMoves := [.go] } }

/-- The same, by the format of the bits. -/
def State.atRaw (r : Raw) (s : State) : State :=
  match r with
  | .cmd p => s.atCommand p
  | .uop code => s.atUop code.toNat
  | .pd w => s.atSymbol w

end Sys2Proof.Machine
end

