-- ==== Sys2Proof/Machine/Step.lean ====
section
/-! DEFINITION. One step of the machine: one agent moves. -/

namespace Sys2Proof.Machine

/-- One step. -/
def step (s : State) : Host.Outcome State Fault Refusal :=
  match s.mover with
  | .host => hostStep s
  | .core => coreStep s
  | .tx => txTurn s

/-- The state with the instruction of a word of the opcode table placed where the next step finds it: on the command port, at
the sequencer, or in the first pulse cell of a frame in flight (log entry 20). -/
def State.withFetchWord (s : State) (nbits w : Nat) : State := s.atRaw (rawOfTableWord nbits w)

end Sys2Proof.Machine
end

