-- ==== Sys2Proof/Safety.lean ====
section
/-! DEFINITION. What counts as a good state of the machine: the invariant that ties its fields together, put together from
the spec's own invariants (10_state.md R44, R45; 41_buffer_manager.md R149, R150; 42_initialize.md R162; 44_tx_boundary.md
R205, R208), and what a safe run is. -/

namespace Sys2Proof.Machine

/-! ## Groups of phases -/

/-- The phases of INITIALIZE after its check: the call's `led_count` has been found positive (R162). -/
def Phase.afterInitCheck : Phase → Bool
  | .initRelease => true
  | .initAllocPx => true
  | .initAllocPl => true
  | .initTxConfigure => true
  | .initTxInstall => true
  | _ => false

/-- The phases in which the old session is gone and the new one is not there yet (R163, R166). -/
def Phase.betweenSessions : Phase → Bool
  | .initAllocPx => true
  | .initAllocPl => true
  | _ => false

/-- The phases that only a live session reaches (R31, R166, R182). -/
def Phase.withSession : Phase → Bool
  | .initTxConfigure => true
  | .initTxInstall => true
  | .showCopy => true
  | .showEncode => true
  | .showSubmit => true
  | .showWait => true
  | _ => false

/-- The phases after BUF.COPY (R184). -/
def Phase.afterCopy : Phase → Bool
  | .showEncode => true
  | .showSubmit => true
  | .showWait => true
  | _ => false

/-- The phases after BUF.FILL (R185). -/
def Phase.afterFill : Phase → Bool
  | .showSubmit => true
  | .showWait => true
  | _ => false

/-- The phases in which a live session's transmitter may be otherwise programmed than R103 says: it is being programmed, or
that has failed. -/
def Phase.txUnsettled : Phase → Bool
  | .initTxConfigure => true
  | .fault => true
  | _ => false

/-- The phases in which a live session's line need not be low (R208, U11): TX is being configured or installed, perhaps for the
first time, a frame is in flight, or a request or a frame has failed. -/
def Phase.lineUnsettled : Phase → Bool
  | .initTxConfigure => true
  | .initTxInstall => true
  | .showWait => true
  | .fault => true
  | _ => false

/-- The edges of the sequencer's transition table (R31), and no others. -/
def Phase.edge : Phase → Phase → Bool
  | .idle, .initCheck => true
  | .idle, .showCheck => true
  | .initCheck, .idle => true
  | .initCheck, .initRelease => true
  | .initRelease, .initAllocPx => true
  | .initAllocPx, .idle => true
  | .initAllocPx, .initAllocPl => true
  | .initAllocPl, .idle => true
  | .initAllocPl, .initTxConfigure => true
  | .initTxConfigure, .fault => true
  | .initTxConfigure, .initTxInstall => true
  | .initTxInstall, .fault => true
  | .initTxInstall, .idle => true
  | .showCheck, .idle => true
  | .showCheck, .showCopy => true
  | .showCopy, .showEncode => true
  | .showEncode, .showSubmit => true
  | .showSubmit, .fault => true
  | .showSubmit, .showWait => true
  | .showWait, .idle => true
  | .showWait, .fault => true
  | _, _ => false

/-! ## Parts of the invariant -/

/-- A descriptor is one of the two symbols (R27). -/
abbrev isSymbol (tp : TimingProfile) (d : Pd) : Prop := d = tp.symbol0 ∨ d = tp.symbol1

/-- A live session's own facts: `N >= 1` (R162), both buffers in their one form and inside their lengths `3N` and `24N`
(R71, R149), every descriptor the core wrote a symbol (R27). -/
structure Session.Ok (tp : TimingProfile) (x : Session) : Prop where
  leds : 1 ≤ x.ledCount
  pxForm : x.px.wf = true
  pxInside : cellsBelow (pxCells x.ledCount) x.px = true
  plForm : risingFrom 0 x.pl = true
  plInside : cellsBelow (plCells x.ledCount) x.pl = true
  plSymbols : ∀ c ∈ x.pl, isSymbol tp c.2

/-- The blocks that are live by the slot and by the block waiting for its partner (R45, R150). -/
def State.ledger (s : State) : List Block :=
  (match s.newPx with
   | some _ => [⟨.px, pxCells s.callLeds⟩]
   | none => []) ++
  (match s.slot with
   | some x => [⟨.px, pxCells x.ledCount⟩, ⟨.pl, plCells x.ledCount⟩]
   | none => [])

/-- The frame of the SHOW in progress: `ENC.SEQ(data[0 .. copy_len), TP)` (R185, R188). -/
def State.frame (s : State) : List Pd := encSeq s.par.tp (s.showData.take s.copyLen)

/-! ## The invariant -/

/-- The invariant that every step keeps. -/
structure State.Inv (s : State) : Prop where
  /-- The parameters are in the ranges of R10 and R11. -/
  params : s.par.wf
  /-- A live session is in order. -/
  session : ∀ x, s.slot = some x → Session.Ok s.par.tp x
  /-- No session between release and the second allocation (R163, R166). -/
  noSession : s.phase.betweenSessions = true → s.slot = none
  /-- A session where only a session leads (R166, R182). -/
  hasSession : s.phase.withSession = true → s.slot.isSome = true
  /-- `N >= 1` in the body of INITIALIZE (R162). -/
  counted : s.phase.afterInitCheck = true → 1 ≤ s.callLeds
  /-- A pixel block without its partner exists exactly between the two allocations (R143, R144), and is zero. -/
  building : s.newPx = if s.phase = .initAllocPl then some Memory.zeroed else none
  /-- `HEAP_LIVE` is exactly the live blocks (R45, R150). -/
  ledgered : s.heapLive = s.ledger
  /-- A cause is recorded exactly in `FAULT` (R37, R231). -/
  faultMark : s.faultCause.isSome = decide (s.phase = .fault)
  /-- A frame is in flight only in `SHOW_WAIT`, or left behind by a timeout (R44, R236). -/
  inflight : s.txInflight.isSome = true →
    s.phase = .showWait ∨ (s.phase = .fault ∧ s.faultCause = some .txWaitTimeout)
  /-- In `SHOW_WAIT` either a frame is in flight or TX has signalled (R205). -/
  waiting : s.phase = .showWait → s.txInflight.isSome = !s.txSignal.isSome
  /-- After BUF.COPY the first `copy_len` bytes of `PX` are those of `DATA` (R184). -/
  copied : s.phase.afterCopy = true →
    ∀ x, s.slot = some x → Memory.readN x.px 0 s.copyLen = s.showData.take s.copyLen
  /-- After BUF.FILL the first `8 * copy_len` cells of `PL` are their encoding (R149, R185). -/
  filled : s.phase.afterFill = true → ∀ j, j < s.txCount → s.plAt j = s.frame[j]?
  /-- A frame in flight is that encoding, on the session's line, just submitted; what has been driven of it has taken its
  time (R77, R203, R205). -/
  flying : s.phase = .showWait → ∀ f, s.txInflight = some f →
    f.seq = s.frame ∧ f.driven ≤ f.seq.length ∧ dur (f.seq.take f.driven) ≤ s.waitTimer ∧
    s.slot.map Session.pin = some f.pin ∧ s.hist.getLast? = some (.txSubmit s.frame true)
  /-- The wait never lasts past the first tick at or past the bound (R204, R286). -/
  timed : s.waitTimer ≤ s.par.waitTicks
  /-- Once TX has signalled `done` the whole frame was on the wire, within the bound, and the line is low (R205 to R208). -/
  sent : s.phase = .showWait → s.txSignal = some .done →
    dur s.frame ≤ s.par.waitLast ∧ s.lineLow = true ∧
    ∃ h x, s.slot = some x ∧ s.hist = h ++ [.txSubmit s.frame true, .wire x.pin s.frame]
  /-- TX is programmed for the live session's pin (R167, R103). -/
  programmed : s.phase.txUnsettled = false → ∀ x, s.slot = some x → s.txCfg = some (.forPin x.pin)
  /-- With a live session and no frame in flight the line is low (R208). -/
  idleLine : s.phase.lineUnsettled = false → s.slot.isSome = true → s.lineLow = true
  /-- From the first successful install on the line is low outside the wait for a frame and what a failed one leaves, with a
  session or without (R208, D9, R164): at a later configure and install, and where a request has failed. -/
  installedLine : 1 ≤ s.txInstalled → s.phase ≠ .showWait → s.faultCause ≠ some .txWait →
    s.faultCause ≠ some .txWaitTimeout → s.lineLow = true

/-- The input presents a command (R251, R34). -/
def HostInput.isCommand : HostInput → Bool
  | .quiet => false
  | .present _ => true
  | .write n _ _ => n == 0
  | .rst => false

/-- A run of the core is over (R264): the host presents no further command, whatever else it does; none is held; `IDLE`, nothing
in flight. -/
def State.runOver (s : State) : Prop :=
  (∀ i ∈ s.env.inputs, i.isCommand = false) ∧ s.waiting = [] ∧ s.phase = .idle ∧ s.txInflight = none

/-- A state reached safely: the invariant holds and no fatal fault is recorded (R264, R279: a fault mark is never part of a
good end). -/
def State.safe (s : State) : Prop := s.Inv ∧ s.faultCause = none

end Sys2Proof.Machine
end

