-- ==== Sys2Proof/Certificates/Slice0/Obligations.lean ====
section
/-! DEFINITION. The statements for the provers. Each docstring names the rules of the spec it formalises. Unless a docstring
says otherwise a statement is about every state, the ones no run reaches included, every host, every answer of the oracles and
every Timing Profile, since all of these stand in the state. -/

open Sys2Proof Sys2Proof.Machine

namespace Sys2Proof.Claims

/-! ## Words the statements share -/

/-- The state after a result: only `PHASE`, `RESULT` and `HIST` differ (R221). -/
def responded (code : ResultCode) (s : State) : State :=
  { s with phase := .idle, result := some code, hist := s.hist ++ [.result code] }

/-- The state after a fatal fault that came with the event `e`: only `PHASE`, `FAULT_CAUSE` and `HIST` differ (R231). -/
def failed (cause : FatalCause) (e : Event) (s : State) : State :=
  { s with phase := .fault, faultCause := some cause, hist := s.hist ++ [e, .fatal cause] }

/-- `N` of the INITIALIZE in progress, `ARG1` read as a signed number. -/
def leds (s : State) : Nat := s.call.arg1.toInt.toNat

/-- The answer `a` is the oracle's: it is the one written down, where one is. -/
def answers (written : List Bool) (a : Bool) : Prop := ∀ b rest, written = b :: rest → a = b

/-- The symbol of one bit (R101). -/
def symbolFor (tp : TimingProfile) (b : Bool) : Pd := if b then ⟨tp.t1h, tp.t1l⟩ else ⟨tp.t0h, tp.t0l⟩

/-- The number of 1 bits in a byte, and in a sequence (R128). -/
def onesOf (x : Byte) : Nat := (List.range 8).countP fun k => x.getLsbD k
/-- `ones(bs)` of R128. -/
def ones (bs : List Byte) : Nat := (bs.map onesOf).sum

/-- The call with further bytes after those the host offered. -/
def withBytes (c : Call) (bs : List Byte) : Call := { c with data := c.data ++ bs }

/-- The command a header gives with the first `L` of the bytes the host offers (R93, R95). -/
def offered (p : Presented) : Call := { p.call with data := p.data.take p.call.dataLen }

/-- `WAIT_TIMEOUT_TICKS = WAIT_TIMEOUT_MS * 1_000_000 / TICK_NS` of R11, exact. -/
def waitBound (p : Params) : ℚ := (p.waitNum / p.waitDen : ℚ) * 1000000 / (p.tickNum / p.tickDen : ℚ)

/-- The code of a phase in R30. -/
def phaseNumber : Phase → Nat
  | .idle => 0 | .initCheck => 1 | .initRelease => 2 | .initAllocPx => 3 | .initAllocPl => 4 | .initTxConfigure => 5
  | .initTxInstall => 6 | .showCheck => 7 | .showCopy => 8 | .showEncode => 9 | .showSubmit => 10 | .showWait => 11
  | .fault => 15

/-- The code of a fatal cause in R37 and R230. -/
def causeNumber : Option FatalCause → Nat
  | none => 0 | some .txConfigure => 1 | some .txInstall => 2 | some .txSubmit => 3 | some .txWait => 4
  | some .txWaitTimeout => 5

/-- The code of a result in R98 and R220. -/
def resultNumber : ResultCode → Nat
  | .ok => 0 | .wrongArgCount => 1 | .wrongArgType => 2 | .outOfMemory => 3 | .notInitialized => 4

/-- The next input is a reset. -/
def resetNow (s : State) : Prop := ∃ rest, s.env.inputs = .rst :: rest

/-- The host lets the others move: nothing to do, or nothing now. -/
def hostQuiet (s : State) : Prop := s.env.inputs = [] ∨ ∃ rest, s.env.inputs = .quiet :: rest

/-- A `CMD` word that R105 reserves, by its digits. -/
def reservedWord (w : Nat) : Prop :=
  65536 ≤ w ∨ (w % 16 ≠ 1 ∧ w % 16 ≠ 2) ∨ (2 ≤ w / 16 % 16 ∧ w / 256 % 16 = 2 ∧ w / 4096 % 16 = 2)

/-- The frees that releasing a session records, `PX` first (R146). -/
def frees : Option Session → List Event
  | some x => [.free .px (3 * x.ledCount), .free .pl (24 * x.ledCount)]
  | none => []

/-- The event is a TX configuration that is not a plain transmitter's (R103, R213). -/
def plainConfig (c : TxCfg) : Prop :=
  c.mode = .transmit ∧ c.idleOutput = .disabledToLow ∧ c.carrier = .none ∧ c.loop = .off

/-- Every configuration requested so far, and the one in force, is a plain transmitter's. -/
def PlainTx (s : State) : Prop :=
  (∀ c ok, .txConfigure c ok ∈ s.hist → plainConfig c) ∧ ∀ c, s.txCfg = some c → plainConfig c

end Sys2Proof.Claims

open Sys2Proof.Claims

/-! ## Encodings -/

/-- Decoding an encoded well-formed instruction gives it back, every operand at every value, for every profile in range. Only
where the profile makes SYM0 and SYM1 one word (R101) does that word read as SYM1, the model's choice by log entry 13. -/
def Obligations.DecodeEncodeRoundTrip : Prop :=
  ∀ (tp : TimingProfile) (i : Instr), tp.wf → i.wf = true →
    decode tp (encode tp i) = .ok (if i = .sym0 ∧ tp.symbol0 = tp.symbol1 then .sym1 else i)

/-- The other direction for the host's commands (R95, R96): what a presentation decodes to is well formed and encodes back to
the same header and registers, with `DATA` the first `L` of the bytes presented, or all of them where the host offers fewer than
it announces: that a shorter `DATA` is admitted is the model's, log entry 14. -/
def Obligations.DecodedCommandEncodesBack : Prop :=
  ∀ (tp : TimingProfile) (p : Presented) (i : Instr), decode tp (.cmd p) = .ok i →
    i.wf = true ∧
    encode tp i = .cmd { cmd := p.cmd, arg0 := p.arg0, arg1 := p.arg1, data := p.data.take p.call.dataLen }

/-- R105: exactly the words it names do not decode, whatever the registers and the bytes beside them, and in `IDLE` the core
presented with one takes no step and gives no result. Outside `IDLE` the model holds such a word and refuses it only when it is
taken, log entry 25: PresentedCommandIsAcceptedOrHeld, HeldCommandIsTakenInIdle and RegisterWrites say so. -/
def Obligations.ReservedCommandWordsAreRefused : Prop :=
  (∀ p : Presented, reservedWord p.cmd.toNat ↔ ∃ why, decodeCommand p = .error why) ∧
  ∀ (s : State) (p : Presented) (rest : List HostInput), s.phase = .idle → s.env.inputs = .present p :: rest →
    reservedWord p.cmd.toNat → ∃ why, step s = .refused (.reservedCommand why)

/-- Words written out from the spec's encodings decode to the operations they stand for: V-DE-1, V-DE-2 and V-DE-14 of
95_test_vectors.md with zero operand registers, the nine codes of R97, and the two symbols of the profile `EX` (R101). -/
def Obligations.OpcodeWordsDecode : Prop :=
  decodeTableWord 32 0x00001121 = some (.hostInitialize ⟨2, 1, 1, 0, 0, []⟩) ∧
  decodeTableWord 32 0x00000212 = some (.hostShow ⟨1, 2, 0, 0, 0, []⟩) ∧
  decodeTableWord 32 0x00000012 = some (.hostShow ⟨1, 0, 0, 0, 0, []⟩) ∧
  decodeTableWord 32 0x00010212 = none ∧
  [2, 3, 4, 5, 6, 8, 9, 10, 11].map (decodeTableWord 8) =
    [some .bufRelease, some .bufAllocPx, some .bufAllocPl, some .txConfigure, some .txInstall, some .bufCopy,
     some .bufFill, some .txSubmit, some .txWait] ∧
  decode ⟨7, 16, 14, 12, 1000⟩ (.pd 0x00108007) = .ok .sym0 ∧
  decode ⟨7, 16, 14, 12, 1000⟩ (.pd 0x000C800E) = .ok .sym1

/-- R100: the packed descriptor, as shifts and as a number, and its inverse. -/
def Obligations.PackedDescriptorLayout : Prop :=
  (∀ d : Pd,
    d.pack = (d.low.setWidth 32 <<< 16) ||| 0x8000#32 ||| d.high.setWidth 32 ∧
    d.pack.toNat = 65536 * d.low.toNat + 32768 + d.high.toNat ∧
    Pd.unpack d.pack = d) ∧
  ∀ w : Word, (Pd.unpack w).high.toNat = w.toNat % 32768 ∧ (Pd.unpack w).low.toNat = w.toNat / 65536 % 32768

/-- R101: the two symbols, their words, and when they are one word. -/
def Obligations.SymbolWords : Prop :=
  ∀ tp : TimingProfile,
    encBit tp false = ⟨tp.t0h, tp.t0l⟩ ∧ encBit tp true = ⟨tp.t1h, tp.t1l⟩ ∧
    (encBit tp false).pack = (tp.t0l.setWidth 32 <<< 16) ||| 0x8000#32 ||| tp.t0h.setWidth 32 ∧
    (encBit tp true).pack = (tp.t1l.setWidth 32 <<< 16) ||| 0x8000#32 ||| tp.t1h.setWidth 32 ∧
    ((encBit tp false).pack = (encBit tp true).pack ↔ tp.t0h = tp.t1h ∧ tp.t0l = tp.t1l)

/-! ## The Bit Encoder -/

/-- R122, R123: eight descriptors a byte, and element `j` is the symbol of bit `7 - (j mod 8)` of byte `j div 8`. -/
def Obligations.EncodedSequenceElements : Prop :=
  ∀ (tp : TimingProfile) (bs : List Byte),
    (encSeq tp bs).length = 8 * bs.length ∧
    ∀ j x, bs[j / 8]? = some x → (encSeq tp bs)[j]? = some (symbolFor tp (x.getLsbD (7 - j % 8)))

/-- R127: with two different symbols the encoder is injective and a bit is read back from its descriptor; with equal symbols
all sequences of one length give one frame. -/
def Obligations.EncoderInjectivity : Prop :=
  ∀ tp : TimingProfile,
    (encBit tp false ≠ encBit tp true →
      (∀ bs bs', encSeq tp bs = encSeq tp bs' → bs = bs') ∧
      ∀ (bs : List Byte) i k x, bs[i]? = some x → k < 8 →
        (x.getLsbD k = true ↔ (encSeq tp bs)[8 * i + 7 - k]? = some (encBit tp true))) ∧
    (encBit tp false = encBit tp true → ∀ bs bs', bs.length = bs'.length → encSeq tp bs = encSeq tp bs')

/-- The tick formula of R128 for an encoded sequence. -/
def Obligations.EncodedDuration : Prop :=
  ∀ (tp : TimingProfile) (bs : List Byte),
    dur (encSeq tp bs) =
      ones bs * (tp.t1h.toNat + tp.t1l.toNat) + (8 * bs.length - ones bs) * (tp.t0h.toNat + tp.t0l.toNat)

/-- R207: on the wire each descriptor is its high interval, then its low one, in order and without a gap, so the whole takes
`dur` ticks. -/
def Obligations.WaveformOfFrame : Prop :=
  ∀ seq : List Pd,
    (waveform seq).length = 2 * seq.length ∧
    ((waveform seq).map Prod.snd).sum = dur seq ∧
    ∀ j d, seq[j]? = some d →
      (waveform seq)[2 * j]? = some (.high, d.high.toNat) ∧ (waveform seq)[2 * j + 1]? = some (.low, d.low.toNat)

/-! ## What each operation does, and what it leaves alone -/

/-- R251 for both commands: in `IDLE` the command is accepted, the event recorded, the latches and the working operands
loaded, the phase that of the check; nothing else changes. Bytes of `DATA` announced and not offered are some bytes, which
alone use up a free draw: log entry 14. -/
def Obligations.CommandsAreAcceptedInIdle : Prop :=
  ∀ (c : Call) (s : State), s.phase = .idle →
    ∃ bs k, bs.length = c.dataLen - c.data.length ∧ (bs = [] → k = s.env.draws) ∧
      exec (.hostInitialize c) s =
        .next { s with
          phase := .initCheck, call := withBytes c bs, cmd := c.header 1, arg0 := c.arg0, arg1 := c.arg1
          hist := s.hist ++ [.cmd ⟨.hostInitialize, callArgs (withBytes c bs)⟩]
          env := { s.env with draws := k } } ∧
      exec (.hostShow c) s =
        .next { s with
          phase := .showCheck, call := withBytes c bs, cmd := c.header 2, arg0 := c.arg0, arg1 := c.arg1
          hist := s.hist ++ [.cmd ⟨.hostShow, callArgs (withBytes c bs)⟩]
          env := { s.env with draws := k } }

/-- R161, R162, R237: the argument check of INITIALIZE, in its order, for every argument count and every tag; a failed check
changes nothing but `RESULT`, `HIST` and the phase. That `led_count <= 0` is `WRONG_ARG_TYPE` is the choice of R162 and D4, which
would let a model refuse it instead (U1): log entry 15. -/
def Obligations.InitializeArgumentCheck : Prop :=
  ∀ (c : Call) (s : State), s.phase = .initCheck →
    exec (.hostInitialize c) s =
      .next
        (if c.argc.toNat ≠ 2 then responded .wrongArgCount s
         else if c.tag0.toNat ≠ 1 ∨ c.tag1.toNat ≠ 1 then responded .wrongArgType s
         else if c.arg1.toInt ≤ 0 then responded .wrongArgType s
         else { s with phase := .initRelease })

/-- R181, R182, R237: the argument check and the precondition of SHOW, in their order; a failed check changes nothing but
`RESULT`, `HIST` and the phase. -/
def Obligations.ShowArgumentCheck : Prop :=
  ∀ (c : Call) (s : State), s.phase = .showCheck →
    exec (.hostShow c) s =
      .next
        (if c.argc.toNat ≠ 1 then responded .wrongArgCount s
         else if c.tag0.toNat ≠ 2 then responded .wrongArgType s
         else if s.slot = none then responded .notInitialized s
         else { s with phase := .showCopy })

/-- R146: BUF.RELEASE frees both blocks of a live session, `PX` first, and empties the slot; without a session it only moves
the sequencer. TX is not touched, and its line stays as the session left it. -/
def Obligations.BufReleaseFreesTheSession : Prop :=
  ∀ s : State,
    (s.slot = none → exec .bufRelease s = .next { s with phase := .initAllocPx }) ∧
    ∀ x, s.slot = some x →
      exec .bufRelease s =
        .next { s with
          phase := .initAllocPx, slot := none
          heapLive := (s.heapLive.erase ⟨.px, 3 * x.ledCount⟩).erase ⟨.pl, 24 * x.ledCount⟩
          hist := s.hist ++ [.free .px (3 * x.ledCount), .free .pl (24 * x.ledCount)] }

/-- R143: BUF.ALLOC_PX asks for `3N` cells; a granted block is all zero; a refusal is the result `OUT_OF_MEMORY` with nothing
else changed. -/
def Obligations.BufAllocPxZeroFills : Prop :=
  ∀ s : State, ∃ ok e px, answers s.env.allocAnswers ok ∧ e.inputs = s.env.inputs ∧ (∀ i, Memory.read px i = 0) ∧
    exec .bufAllocPx s =
      .next
        (if ok then
          { s with
            phase := .initAllocPl, newPx := some px, env := e
            heapLive := s.heapLive ++ [⟨.px, 3 * leds s⟩]
            hist := s.hist ++ [.alloc .px (3 * leds s) true] }
        else
          responded .outOfMemory { s with env := e, hist := s.hist ++ [.alloc .px (3 * leds s) false] })

/-- R144, R145, R166: BUF.ALLOC_PL asks for `24N` cells; granted, the session is live with the pixel block of this call and a
pulse buffer in which no cell holds a value; refused, the pixel block is freed and the result is `OUT_OF_MEMORY`. -/
def Obligations.BufAllocPlMakesTheSessionLive : Prop :=
  ∀ (s : State) (px : Memory), s.newPx = some px →
    ∃ ok e pl, answers s.env.allocAnswers ok ∧ e.inputs = s.env.inputs ∧ (∀ j, cellAt pl j = none) ∧
      exec .bufAllocPl s =
        .next
          (if ok then
            { s with
              phase := .initTxConfigure, newPx := none, env := e
              slot := some { pin := s.call.arg0.toInt, ledCount := leds s, px := px, pl := pl }
              heapLive := s.heapLive ++ [⟨.pl, 24 * leds s⟩]
              hist := s.hist ++ [.alloc .pl (24 * leds s) true] }
          else
            responded .outOfMemory
              { s with
                newPx := none, env := e
                heapLive := s.heapLive.erase ⟨.px, 3 * leds s⟩
                hist := s.hist ++ [.alloc .pl (24 * leds s) false, .free .px (3 * leds s)] })

/-- R201, R232: TX.CONFIGURE hands TX the record of R103 for the session's pin; accepted, the record replaces the last one
whole; an error is the fatal cause `TX_CONFIGURE` with `TX_CFG` and the line as before. That after a success the line is held low
exactly if TX has been installed before is R208 and D9 as log entry 8 reads them. -/
def Obligations.TxConfigureProgramsThePin : Prop :=
  ∀ (s : State) (x : Session), s.slot = some x →
    ∃ ok e, answers s.env.txAnswers ok ∧ e.inputs = s.env.inputs ∧
      exec .txConfigure s =
        .next
          (if ok then
            { s with
              phase := .initTxInstall, env := e, lineLow := decide (1 ≤ s.txInstalled)
              txCfg := some ⟨x.pin, .transmit, .disabledToLow, .none, .off⟩
              hist := s.hist ++ [.txConfigure ⟨x.pin, .transmit, .disabledToLow, .none, .off⟩ true] }
          else
            failed .txConfigure (.txConfigure ⟨x.pin, .transmit, .disabledToLow, .none, .off⟩ false)
              { s with env := e })

/-- R202, R233: TX.INSTALL counts a successful install and ends INITIALIZE with `OK`; an error is the fatal cause
`TX_INSTALL`. That the line is low from then on is R208. -/
def Obligations.TxInstallEndsInitialize : Prop :=
  ∀ s : State, ∃ ok e, answers s.env.txAnswers ok ∧ e.inputs = s.env.inputs ∧
    exec .txInstall s =
      .next
        (if ok then
          responded .ok
            { s with
              txInstalled := s.txInstalled + 1, env := e, lineLow := true
              hist := s.hist ++ [.txInstall true] }
        else failed .txInstall (.txInstall false) { s with env := e })

/-- R147, R184: BUF.COPY writes `PX[i] <- DATA[i]` for `i < copy_len = min(L, 3N)`; every other cell of `PX`, all of `PL` and
everything else is as before. Its code is 8. -/
def Obligations.BufCopyWritesThePrefix : Prop :=
  (∀ tp, decode tp (.uop 8) = .ok .bufCopy) ∧
  ∀ (s : State) (x : Session), s.slot = some x → x.px.wf = true →
    ∃ px t, exec .bufCopy s = .next t ∧ t = { s with phase := .showEncode, slot := some { x with px := px } } ∧
      px.wf = true ∧
      ∀ i, t.pxAt i = if i < min s.showData.length (3 * x.ledCount) then s.showData[i]? else s.pxAt i

/-- R148, R185, R68: BUF.FILL writes the symbol of bit `7 - (j mod 8)` of `PX[j div 8]` to `PL[j]` for `j < 8 * copy_len`;
every other cell of `PL`, all of `PX` and everything else is as before. Its code is 9. -/
def Obligations.BufFillEncodesThePrefix : Prop :=
  (∀ tp, decode tp (.uop 9) = .ok .bufFill) ∧
  ∀ (s : State) (x : Session), s.slot = some x →
    ∃ pl t, exec .bufFill s = .next t ∧ t = { s with phase := .showSubmit, slot := some { x with pl := pl } } ∧
      ∀ j, t.plAt j =
        if j < 8 * min s.showData.length (3 * x.ledCount) then
          (s.pxAt (j / 8)).map fun b => symbolFor s.par.tp (b.getLsbD (7 - j % 8))
        else s.plAt j

/-- R203, R186, R234: TX.SUBMIT submits `PL[0 .. 8 * copy_len)`, on the pin TX is programmed for; accepted, the frame is in
flight and the wait begins; an error is the fatal cause `TX_SUBMIT` with the buffers as they are. A cell that holds no value,
which no run submits, goes out as any value. -/
def Obligations.TxSubmitSendsThePrefix : Prop :=
  ∀ s : State, ∃ ok e seq pin, answers s.env.txAnswers ok ∧ e.inputs = s.env.inputs ∧
    (∀ c, s.txCfg = some c → pin = c.pin) ∧
    seq.length = 8 * s.copyLen ∧ (∀ j d, j < 8 * s.copyLen → s.plAt j = some d → seq[j]? = some d) ∧
    exec .txSubmit s =
      .next
        (if ok then
          { s with
            phase := .showWait, txInflight := some ⟨pin, seq, 0, false⟩, txSignal := none, waitTimer := 0, env := e
            hist := s.hist ++ [.txSubmit seq true] }
        else failed .txSubmit (.txSubmit seq false) { s with env := e })

/-- R204, R187, R235, R236: TX.WAIT ends in `OK` on `done`, in the fatal cause `TX_WAIT` on `err`, in `TX_WAIT_TIMEOUT` at the
bound with neither, and otherwise leaves the core blocked with nothing changed. `waitTicks` is the first whole tick at or past
the bound (WaitBoundIsExact). That nothing holds the line low after a timeout is R205 and U11. -/
def Obligations.TxWaitOutcomes : Prop :=
  ∀ s : State,
    (s.txSignal = some .done →
      exec .txWait s = .next (responded .ok { s with hist := s.hist ++ [.txWait .done] })) ∧
    (s.txSignal = some .err → exec .txWait s = .next (failed .txWait (.txWait .err) s)) ∧
    (s.txSignal = none → s.par.waitTicks ≤ s.waitTimer →
      exec .txWait s = .next (failed .txWaitTimeout (.txWait .timeout) { s with lineLow := false })) ∧
    (s.txSignal = none → s.waitTimer < s.par.waitTicks → exec .txWait s = .next s)

/-- R101, R120, R207: SYM0 drives `(T0H, T0L)` and SYM1 `(T1H, T1L)`: one more descriptor of the frame is done, its ticks have
passed, the line ends low, and nothing else changes. That TX drives a frame one descriptor a step, its ticks passing at once, is
the model's, log entry 7; that with nothing left to drive nothing happens is the model's as well, log entry 11. -/
def Obligations.SymbolsDriveTheLine : Prop :=
  ∀ s : State,
    (∀ f, s.txInflight = some f → f.driven < f.seq.length →
      exec .sym0 s =
        .next { s with
          txInflight := some { f with driven := f.driven + 1 }
          waitTimer := s.waitTimer + (s.par.tp.t0h.toNat + s.par.tp.t0l.toNat), lineLow := true } ∧
      exec .sym1 s =
        .next { s with
          txInflight := some { f with driven := f.driven + 1 }
          waitTimer := s.waitTimer + (s.par.tp.t1h.toNat + s.par.tp.t1l.toNat), lineLow := true }) ∧
    ((∀ f, s.txInflight = some f → f.seq.length ≤ f.driven) → exec .sym0 s = .next s ∧ exec .sym1 s = .next s)

/-- No operation of the opcode table stops the machine: each answers a next state, in every state. What an operation does
without its session or its configuration is the model's, log entry 11; that it does not look at the phase is log entry 21. -/
def Obligations.EveryOperationAnswersNext : Prop := ∀ (i : Instr) (s : State), ∃ t, exec i s = .next t

/-! ## One step -/

/-- A step runs the decoded instruction: the command in progress in its check, a micro-operation by its code, a command taken
from the port, a symbol TX reads from the pulse buffer. One micro-operation a step is the model's, log entry 1, and so is one
descriptor a step of TX, as long as it ends within the bound, log entry 7. -/
def Obligations.StepRunsTheDecodedInstruction : Prop :=
  (∀ s i, hostQuiet s → s.txFrame = none → decode s.par.tp (.uop (BitVec.ofNat 4 s.phase.code)) = .ok i →
    step s = exec i s.nextInput) ∧
  (∀ s, hostQuiet s → s.phase = .initCheck → step s = exec (.hostInitialize s.call) s.nextInput) ∧
  (∀ s, hostQuiet s → s.phase = .showCheck → step s = exec (.hostShow s.call) s.nextInput) ∧
  (∀ s p rest i, s.env.inputs = .present p :: rest → s.phase = .idle → decode s.par.tp (.cmd p) = .ok i →
    step s = exec i s.nextInput) ∧
  (∀ s f i, hostQuiet s → s.txFrame = some f → s.txMove = .go → f.cut = false → f.driven < f.seq.length →
    s.waitTimer + Pd.ticks (s.plRead f.driven) ≤ s.par.waitLast →
    decode s.par.tp (.pd (s.plRead f.driven).pack) = .ok i → step s = exec i s.nextInput.txMoved.drawn)

/-- R251: presented outside `IDLE` a command is held and nothing else happens; presented in `IDLE` it is accepted, with its
event, its words in the latches, and everything the core owns untouched. Bytes of `DATA` announced and not offered are some
bytes: log entry 14. That reserved words too are held outside `IDLE` is the model's, log entry 25. -/
def Obligations.PresentedCommandIsAcceptedOrHeld : Prop :=
  ∀ (s : State) (p : Presented) (rest : List HostInput), s.env.inputs = .present p :: rest →
    (s.phase ≠ .idle →
      step s = .next { s with waiting := s.waiting ++ [p], env := { s.env with inputs := rest } }) ∧
    (s.phase = .idle → ∀ i, decodeCommand p = .ok i →
      ∃ k op bs n, bs.length = (offered p).dataLen - (offered p).data.length ∧ (bs = [] → n = s.env.draws) ∧
        (k = .initCheck ∧ op = .hostInitialize ∧ p.cmd.toNat % 16 = 1 ∨
          k = .showCheck ∧ op = .hostShow ∧ p.cmd.toNat % 16 = 2) ∧
        step s = .next { s with
          phase := k, call := withBytes (offered p) bs
          cmd := p.cmd, arg0 := p.arg0, arg1 := p.arg1
          hist := s.hist ++ [.cmd ⟨op, callArgs (withBytes (offered p) bs)⟩]
          env := { s.env with inputs := rest, draws := n } })

/-- R251, R271, R105: in `IDLE` with commands held and the host quiet, one of the held ones is taken, the one the order
written down names where one is, and only it leaves the list: it runs, or it is refused where its words are reserved. That held
words which are reserved are refused only now is the model's, log entry 25. -/
def Obligations.HeldCommandIsTakenInIdle : Prop :=
  ∀ s : State, hostQuiet s → s.phase = .idle → s.waiting ≠ [] →
    ∃ k p e, s.waiting[k]? = some p ∧ e.inputs = s.env.inputs.tail ∧
      (∀ j rest, s.env.picks = j :: rest → k = j % s.waiting.length) ∧
      step s = takeCommand p { s with waiting := s.waiting.eraseIdx k, env := e } ∧
      (∀ i, decodeCommand p = .ok i → step s = exec i { s with waiting := s.waiting.eraseIdx k, env := e }) ∧
      ∀ why, decodeCommand p = .error why → step s = .refused (.reservedCommand why)

/-- TX's own moves in `SHOW_WAIT` while its frame is in flight and no signal is given (R205 to R207, R241), and what the core
does when the bound has passed. The moves themselves, descriptors apart, and the completion in a step of its own are the
model's, log entry 7; what is in time at the bound is log entry 16. That a completion comes no sooner than `dur` ticks after the
submit (R205 a) is not in the premises: it is the clause `flying` of the invariant. -/
def Obligations.TransmitterMoves : Prop :=
  ∀ (s : State) (f : Frame) (m : TxMove) (ms : List TxMove), s.env.inputs = [] → s.phase = .showWait →
    s.txSignal = none → s.txInflight = some f → s.env.txMoves = m :: ms →
    (m = .fail → s.waitTimer ≤ s.par.waitLast →
      step s = .next { s with
        txInflight := none, txSignal := some .err, lineLow := false, env := { s.env with txMoves := ms } }) ∧
    (m = .go → f.cut = false → f.seq.length ≤ f.driven → s.waitTimer ≤ s.par.waitLast →
      step s = .next { s with
        txInflight := none, txSignal := some .done, lineLow := true, hist := s.hist ++ [.wire f.pin f.seq]
        env := { s.env with txMoves := ms } }) ∧
    (∀ k, m = .pause k → f.cut = false → f.driven = 0 ∨ f.seq.length ≤ f.driven → s.waitTimer < s.par.waitTicks →
      step s = .next { s with
        waitTimer := min (s.waitTimer + (k + 1)) s.par.waitTicks, env := { s.env with txMoves := ms } }) ∧
    (∀ k, m = .pause k → 0 < f.driven → f.driven < f.seq.length → s.waitTimer < s.par.waitTicks →
      step s = .next { s with
        txInflight := some { f with cut := true }, lineLow := false
        waitTimer := min (s.waitTimer + (k + 1)) s.par.waitTicks, env := { s.env with txMoves := ms } }) ∧
    (∀ k, f.cut = true → (m = .go ∧ k = 0) ∨ m = .pause k → s.waitTimer < s.par.waitTicks →
      step s = .next { s with
        lineLow := false, waitTimer := min (s.waitTimer + (k + 1)) s.par.waitTicks
        env := { s.env with txMoves := ms } }) ∧
    (∀ d, m = .go → f.cut = false → f.driven < f.seq.length → s.waitTimer < s.par.waitTicks →
      s.plAt f.driven = some d → s.par.waitLast < s.waitTimer + Pd.ticks d →
      ∃ k, step s = .next { s with
        txInflight := some { f with cut := true }, lineLow := false, waitTimer := s.par.waitTicks
        env := { s.env with txMoves := ms, draws := k } }) ∧
    (s.par.waitTicks ≤ s.waitTimer →
      (∃ k, m = .pause k) ∨ (m = .go ∧ f.driven < f.seq.length) ∨ s.par.waitLast < s.waitTimer →
      step s = .next (failed .txWaitTimeout (.txWait .timeout) { s with lineLow := false }))

/-- R207: on the wire a frame has no gap. Once TX has stopped inside its frame, no step completes it: no `Wire` event, no
`done`, no `OK`; the mark stays as long as the frame is in flight. That a pause inside a frame is such a stop is the model's,
log entry 7. -/
def Obligations.FrameWithAGapIsNeverSent : Prop :=
  ∀ (s t : State) (f : Frame), s.Inv → step s = .next t → ¬ resetNow s → s.phase = .showWait →
    s.txInflight = some f → f.cut = true →
    t.phase ≠ .idle ∧ t.txSignal ≠ some .done ∧ (∀ g, t.txInflight = some g → g.cut = true) ∧
    ∃ h, t.hist = s.hist ++ h ∧ ∀ e ∈ h, ∀ pin seq, e ≠ .wire pin seq

/-- R11, R204, R206: the two whole numbers the wait is run by are exact. A whole count of ticks is at or past
`WAIT_TIMEOUT_TICKS` from `waitTicks` on, and within it up to `waitLast`. -/
def Obligations.WaitBoundIsExact : Prop :=
  ∀ p : Params, p.wf → ∀ t : Nat,
    (p.waitTicks ≤ t ↔ waitBound p ≤ t) ∧ (t ≤ p.waitLast ↔ (t : ℚ) ≤ waitBound p)

/-- R208, R164, R262: the line of a live session is low while the core is idle; from the first successful install on the line is
low, with a session or without, whenever no frame is in flight and none has failed or timed out; and a look at the line changes
nothing but the counter of free draws. Which pin's line it is while TX is programmed anew, and after a failed allocation or a
failed configure, is as log entry 8 reads R208 and R164. -/
def Obligations.LineIsLowBetweenFrames : Prop :=
  ∀ s : State,
    (s.Inv → s.phase = .idle → s.slot.isSome = true → s.readLine = (.low, s)) ∧
    (s.Inv → 1 ≤ s.txInstalled → (s.phase = .showWait → s.txSignal = some .done) → s.faultCause ≠ some .txWait →
      s.faultCause ≠ some .txWaitTimeout → s.readLine = (.low, s)) ∧
    ∃ level k, s.readLine = (level, { s with env := { s.env with draws := k } })

/-- R260, R261: reset takes every item to its reset value from any state, `FAULT` and `SHOW_WAIT` included; the build's
parameters stay. The zero of the latches and of the working operands is the model's, log entry 5. -/
def Obligations.ResetFromAnyState : Prop :=
  ∀ (s : State) (rest : List HostInput), s.env.inputs = .rst :: rest →
    step s = .next { State.reset with par := s.par, env := { s.env with inputs := rest } }

/-- R47: the reset values the spec gives, the two registers among them. -/
def Obligations.ResetValues : Prop :=
  State.reset.slot = none ∧ State.reset.phase = .idle ∧ State.reset.faultCause = none ∧
  State.reset.statusWord = 0 ∧ State.reset.resultWord = 0 ∧ State.reset.txInflight = none ∧
  State.reset.waitTimer = 0 ∧ State.reset.txCfg = none ∧ State.reset.txInstalled = 0 ∧
  State.reset.heapLive = [] ∧ State.reset.hist = [] ∧ State.reset.waiting = []

/-! ## Rules of the whole machine -/

/-- R31: the sequencer moves only along the edges of its table. A step that is no reset either leaves the phase alone or
follows an edge. -/
def Obligations.PhaseFollowsTheTable : Prop :=
  ∀ s t : State, step s = .next t → ¬ resetNow s → t.phase = s.phase ∨ s.phase.edge t.phase = true

/-- R239, R231: nothing but reset leaves `FAULT` and no command is accepted there. A step changes only what is the host's: its
further inputs and the oracles' lists, the commands held, and the latches `ARG0` and `ARG1`, which the host may write (log
entry 12). That the machine has halted with a host that does nothing more is the model's, log entry 17. -/
def Obligations.FaultIsForGood : Prop :=
  ∀ s : State, s.phase = .fault →
    (s.env.inputs = [] → step s = .fault .haltedInFault) ∧
    ∀ t, step s = .next t → ¬ resetNow s →
      ∃ e w a b, t = { s with env := e, waiting := w, arg0 := a, arg1 := b }

/-- R40: the Timing Profile, the tick and the wait bound never change, at reset or otherwise, so registers 7 to 12 read the
same for ever. -/
def Obligations.ParametersNeverChange : Prop :=
  ∀ s t : State, step s = .next t →
    t.par = s.par ∧
    ∀ n, 7 ≤ n → n ≤ 12 → ∃ w, readReg n s = .next (w, s) ∧ readReg n t = .next (w, t)

/-- R46: the history is only appended to; reset alone empties it. -/
def Obligations.HistoryOnlyGrows : Prop :=
  ∀ s t : State, step s = .next t → ¬ resetNow s → s.hist <+: t.hist

/-- R221: exactly one result or one fatal cause ends a command. A step that ends one records it last in the history, with the
matching latch; a step that does not records neither and leaves both latches alone. -/
def Obligations.CommandEndsInOneResultOrFault : Prop :=
  ∀ s t : State, step s = .next t → ¬ resetNow s →
    (s.busy = true → t.phase = .idle →
      ∃ h code, t.hist = s.hist ++ h ++ [.result code] ∧ t.result = some code ∧ t.faultCause = s.faultCause ∧
        ∀ e ∈ h, (∀ c, e ≠ .result c) ∧ ∀ c, e ≠ .fatal c) ∧
    (s.busy = true → t.phase = .fault →
      ∃ h cause, t.hist = s.hist ++ h ++ [.fatal cause] ∧ t.faultCause = some cause ∧ t.result = s.result ∧
        ∀ e ∈ h, (∀ c, e ≠ .result c) ∧ ∀ c, e ≠ .fatal c) ∧
    ((s.busy = false ∨ t.busy = true) →
      ∃ h, t.hist = s.hist ++ h ∧ t.result = s.result ∧ t.faultCause = s.faultCause ∧
        ∀ e ∈ h, (∀ c, e ≠ .result c) ∧ ∀ c, e ≠ .fatal c)

/-- R21, R22, R23: the slot is written only by INITIALIZE and by reset: whether there is a session, its pin and its LED count
change in no other step. -/
def Obligations.SlotIsWrittenOnlyByInitialize : Prop :=
  ∀ s t : State, step s = .next t → ¬ resetNow s → s.phase ≠ .initRelease → s.phase ≠ .initAllocPl →
    (t.slot.map fun x => (x.pin, x.ledCount)) = s.slot.map fun x => (x.pin, x.ledCount)

/-- R62, R63, R65: while a session lives, `PX` is written only in BUF.COPY's phase and `PL` only in BUF.FILL's: no other step,
of any agent, changes a cell. -/
def Obligations.BuffersAreWrittenOnlyByShow : Prop :=
  ∀ s t : State, step s = .next t → ¬ resetNow s → s.phase ≠ .initRelease → s.phase ≠ .initAllocPl →
    (s.phase ≠ .showCopy → ∀ i, t.pxAt i = s.pxAt i) ∧ (s.phase ≠ .showEncode → ∀ j, t.plAt j = s.plAt j)

/-- R150, R65: blocks are allocated and freed only in the first three steps of INITIALIZE: no other step but reset changes
the ledger, and none records an `Alloc` or a `Free`. -/
def Obligations.OnlyInitializeAllocates : Prop :=
  ∀ s t : State, step s = .next t → ¬ resetNow s → s.phase ≠ .initRelease → s.phase ≠ .initAllocPx →
    s.phase ≠ .initAllocPl →
    t.heapLive = s.heapLive ∧
    ∃ h, t.hist = s.hist ++ h ∧ ∀ e ∈ h, (∀ k n ok, e ≠ .alloc k n ok) ∧ ∀ k n, e ≠ .free k n

/-- R213: TX is never put in a receive mode, never given a carrier, never made to loop: that every request so far, and the
record in force, is a plain transmitter's is kept by every step. -/
def Obligations.TxIsAlwaysAPlainTransmitter : Prop := ∀ s t : State, PlainTx s → step s = .next t → PlainTx t

/-- The invariant of Safety.lean (R27, R44, R45, R77, R149, R150, R162, R166, R205, R208) holds at reset. -/
def Obligations.ResetMeetsTheInvariant : Prop := State.reset.Inv

/-- And every step keeps it, from every state that meets it. -/
def Obligations.StepKeepsTheInvariant : Prop := ∀ s t : State, s.Inv → step s = .next t → t.Inv

/-- R150: never more than two blocks are live, whatever the phase. -/
def Obligations.AtMostTwoBlocksAreLive : Prop :=
  ∀ s : State, s.Inv →
    s.heapLive.length ≤ 2 ∧
    (s.phase = .idle →
      s.heapLive =
        match s.slot with
        | some x => [⟨.px, 3 * x.ledCount⟩, ⟨.pl, 24 * x.ledCount⟩]
        | none => [])

/-- R188, R206, R246: a SHOW that returns `OK` has put exactly its frame, the encoding of the first `copy_len` bytes of its
data, on the session's line, within the exact wait bound of R11, and has nothing in flight. No premise on TX. -/
def Obligations.ShowOkMeansTheFrameWasSent : Prop :=
  ∀ s t : State, s.Inv → step s = .next t → ¬ resetNow s → s.phase = .showWait → t.phase = .idle →
    ∃ h x, s.slot = some x ∧ t.txInflight = none ∧ t.result = some .ok ∧
      (dur (encSeq s.par.tp (s.showData.take s.copyLen)) : ℚ) ≤ waitBound s.par ∧
      t.hist = h ++
        [.txSubmit (encSeq s.par.tp (s.showData.take s.copyLen)) true,
         .wire x.pin (encSeq s.par.tp (s.showData.take s.copyLen)), .txWait .done, .result .ok]

/-- R246, R274: a SHOW whose frame takes longer than the wait bound cannot leave `SHOW_WAIT` for `IDLE` but by reset. -/
def Obligations.FrameLongerThanTheBoundNeverReturnsOk : Prop :=
  ∀ s t : State, s.Inv → s.phase = .showWait →
    waitBound s.par < dur (encSeq s.par.tp (s.showData.take s.copyLen)) →
    step s = .next t → ¬ resetNow s → t.phase ≠ .idle

/-- R183, R191: the bytes of `DATA` at or beyond `3N` decide neither `copy_len` nor the frame of the SHOW, nor what BUF.COPY
and then BUF.FILL leave in the session, nor the sequence that TX.SUBMIT then hands to TX. The history alone keeps them, in the
event of the command (R46). -/
def Obligations.BytesBeyondCapacityDecideNothing : Prop :=
  ∀ (s s' : State) (x : Session), s.slot = some x → s'.slot = some x → s.par.tp = s'.par.tp →
    s.showData.take (3 * x.ledCount) = s'.showData.take (3 * x.ledCount) →
    s.copyLen = s'.copyLen ∧ s.frame = s'.frame ∧
    ∃ t t' u u', exec .bufCopy s = .next t ∧ exec .bufCopy s' = .next t' ∧ t.slot = t'.slot ∧
      exec .bufFill t = .next u ∧ exec .bufFill t' = .next u' ∧ u.slot = u'.slot ∧ u.submission = u'.submission

/-! ## Whole commands, from the command port to the result -/

/-- R160, R169, R172 and V-IN-1, V-IN-4: `initialize(pin, led_count)` presented to an idle core, with every answer
favourable, is seven steps: the old session, if any, is freed first, both buffers are allocated, TX is configured and
installed, the result is `OK`, and the session is the new one, all zero. That it is seven steps is the model's, log entry 1. -/
def Obligations.InitializeRunsToOk : Prop :=
  ∀ (s : State) (pinWord ledWord : Word) (data : List Byte) (as ts : List Bool), s.Inv → s.phase = .idle →
    s.env.inputs = [.present { cmd := 0x1121, arg0 := pinWord, arg1 := ledWord, data := data }] →
    1 ≤ ledWord.toInt → s.env.allocAnswers = true :: true :: as → s.env.txAnswers = true :: true :: ts →
    ∃ t x, Host.Core.run Sys2Proof.core 7 s = .next t ∧ t.phase = .idle ∧ t.result = some .ok ∧
      t.slot = some x ∧ x.pin = pinWord.toInt ∧ (x.ledCount : Int) = ledWord.toInt ∧
      (∀ i, t.pxAt i = if i < 3 * x.ledCount then some 0 else none) ∧ (∀ j, t.plAt j = none) ∧
      t.heapLive = [⟨.px, 3 * x.ledCount⟩, ⟨.pl, 24 * x.ledCount⟩] ∧
      t.txCfg = some ⟨pinWord.toInt, .transmit, .disabledToLow, .none, .off⟩ ∧
      t.txInstalled = s.txInstalled + 1 ∧
      t.hist = s.hist ++ [.cmd ⟨.hostInitialize, [.int pinWord.toInt, .int ledWord.toInt]⟩] ++ frees s.slot ++
        [.alloc .px (3 * x.ledCount) true, .alloc .pl (24 * x.ledCount) true,
         .txConfigure ⟨pinWord.toInt, .transmit, .disabledToLow, .none, .off⟩ true, .txInstall true, .result .ok]

/-- R145, R164, R165, R224 and V-IN-2, V-IN-3, V-IN-5: whichever allocation fails, INITIALIZE ends in `OUT_OF_MEMORY` with no
session, no block live and TX and its line as they were, whether or not a session was live before. The number of steps is the
model's, log entry 1. -/
def Obligations.FailedAllocationLeavesNoSession : Prop :=
  ∀ (s : State) (pinWord ledWord : Word) (data : List Byte) (as : List Bool) (second : Bool), s.Inv →
    s.phase = .idle →
    s.env.inputs = [.present { cmd := 0x1121, arg0 := pinWord, arg1 := ledWord, data := data }] →
    1 ≤ ledWord.toInt → s.env.allocAnswers = (if second then true :: false :: as else false :: as) →
    ∃ t, Host.Core.run Sys2Proof.core (if second then 5 else 4) s = .next t ∧ t.phase = .idle ∧
      t.result = some .outOfMemory ∧ t.slot = none ∧ t.heapLive = [] ∧ t.newPx = none ∧ t.txCfg = s.txCfg ∧
      t.txInstalled = s.txInstalled ∧ t.lineLow = s.lineLow

/-- R222 to R225, R237 and V-DE-3 to V-DE-14: a command that fails its check or its precondition leaves everything as it was
but `RESULT`, the history, the latches and operands it was accepted with, and what is the host's. Bytes of `DATA` announced and
not offered are some bytes, log entry 14; that it is two steps from the port to the result is the model's, log entry 1. -/
def Obligations.RejectedCommandTouchesNothing : Prop :=
  ∀ (s : State) (p : Presented) (c : Call) (op : Operation) (code : ResultCode), s.phase = .idle →
    s.env.inputs = [.present p] →
    ((op = .hostInitialize ∧ decodeCommand p = .ok (.hostInitialize c) ∧
        initializeError (callArgs c) = some code) ∨
     (op = .hostShow ∧ decodeCommand p = .ok (.hostShow c) ∧ showError (callArgs c) s.live = some code)) →
    ∃ bs k, bs.length = c.dataLen - c.data.length ∧
      Host.Core.run Sys2Proof.core 2 s =
        .next { s with
          result := some code, call := withBytes c bs, cmd := p.cmd, arg0 := p.arg0, arg1 := p.arg1
          hist := s.hist ++ [.cmd ⟨op, callArgs (withBytes c bs)⟩, .result code]
          env := { s.env with inputs := [], draws := k } }

/-- R180, R188, R192 and V-SH-2 to V-SH-6: `show(data)` on a live session, with TX accepting the frame and driving it through,
and the frame inside the exact wait bound of R11, runs to `OK` in `8 * copy_len + 7` steps, a count that is the model's, log
entries 1 and 7: exactly the prefix is in `PX`, its encoding in `PL` and on the wire, every other cell is as before. Any length
of `data`, 0 and beyond `3N` included. -/
def Obligations.ShowRunsToOk : Prop :=
  ∀ (s : State) (x : Session) (lenWord other : Word) (data : List Byte) (ts : List Bool) (ms : List TxMove) (c : Nat),
    s.Inv → s.phase = .idle → s.slot = some x →
    s.env.inputs = [.present { cmd := 0x0212, arg0 := lenWord, arg1 := other, data := data }] →
    data.length = lenWord.toNat → c = min data.length (3 * x.ledCount) →
    s.env.txAnswers = true :: ts → s.env.txMoves = List.replicate (8 * c + 1) .go ++ ms →
    (dur (encSeq s.par.tp (data.take c)) : ℚ) ≤ waitBound s.par →
    ∃ t, Host.Core.run Sys2Proof.core (8 * c + 7) s = .next t ∧ t.phase = .idle ∧ t.result = some .ok ∧
      t.txInflight = none ∧ t.heapLive = s.heapLive ∧
      (t.slot.map fun y => (y.pin, y.ledCount)) = some (x.pin, x.ledCount) ∧
      (∀ i, t.pxAt i = if i < c then data[i]? else s.pxAt i) ∧
      (∀ j, t.plAt j = if j < 8 * c then (encSeq s.par.tp (data.take c))[j]? else s.plAt j) ∧
      t.hist = s.hist ++
        [.cmd ⟨.hostShow, [.bytes data]⟩, .txSubmit (encSeq s.par.tp (data.take c)) true,
         .wire x.pin (encSeq s.par.tp (data.take c)), .txWait .done, .result .ok]

/-! ## The register view -/

/-- R30, R32, R37, R230: `STATUS` by its fields, with the numbers of the phases and of the causes. -/
def Obligations.StatusRegisterFields : Prop :=
  ∀ s : State,
    readReg 3 s = .next (s.statusWord, s) ∧
    s.statusWord.getLsbD 0 = s.slot.isSome ∧
    s.statusWord.getLsbD 1 = decide (s.phase ≠ .idle ∧ s.phase ≠ .fault) ∧
    s.statusWord.getLsbD 2 = decide (s.phase = .fault) ∧
    s.statusWord.getLsbD 3 = false ∧
    s.statusWord.toNat / 16 % 16 = phaseNumber s.phase ∧
    s.statusWord.toNat / 256 % 8 = causeNumber s.faultCause ∧
    s.statusWord.toNat < 2048

/-- R38, R98, R220: `RESULT` is 0 until a command has completed, and `0x10` plus the number of its code after. -/
def Obligations.ResultRegisterFields : Prop :=
  ∀ s : State,
    readReg 4 s = .next (s.resultWord, s) ∧
    (s.result = none → s.resultWord = 0) ∧
    ∀ c, s.result = some c → s.resultWord.toNat = 16 + resultNumber c

/-- R33, R37 to R40: what every register reads. While there is no session registers 5 and 6 read some value, and so does a
write-only register; a read changes nothing but the counter of free draws. Registers 11 and 12 read some value of the build
where `TRESET` does not fit 32 bits and where `WAIT_TIMEOUT_TICKS` is no whole number: log entry 4. -/
def Obligations.RegisterReads : Prop :=
  ∀ s : State, s.par.wf →
    readReg 3 s = .next (s.statusWord, s) ∧ readReg 4 s = .next (s.resultWord, s) ∧
    (∀ x, s.slot = some x →
      readReg 5 s = .next (BitVec.ofInt 32 x.pin, s) ∧ readReg 6 s = .next (BitVec.ofNat 32 x.ledCount, s)) ∧
    (∀ n, n < 3 ∨ (s.slot = none ∧ (n = 5 ∨ n = 6)) →
      ∃ w k, readReg n s = .next (w, { s with env := { s.env with draws := k } })) ∧
    readReg 7 s = .next (s.par.tp.t0h.setWidth 32, s) ∧ readReg 8 s = .next (s.par.tp.t0l.setWidth 32, s) ∧
    readReg 9 s = .next (s.par.tp.t1h.setWidth 32, s) ∧ readReg 10 s = .next (s.par.tp.t1l.setWidth 32, s) ∧
    (∃ w : Word, readReg 11 s = .next (w, s) ∧ (s.par.tp.treset < 2 ^ 32 → w.toNat = s.par.tp.treset)) ∧
    (∃ w : Word, readReg 12 s = .next (w, s) ∧ (0xFFFFFFFF < waitBound s.par → w = 0xFFFFFFFF) ∧
      ∀ n : Nat, waitBound s.par = n → w.toNat = min n 0xFFFFFFFF) ∧
    ∀ n, 13 ≤ n → readReg n s = .refused (.reservedRegister n)

/-- R33 to R36, R105, R251: writes by the host. `CMD` presents the command whose arguments stand in the latches, refused
where its words are reserved, with the hold of R251 outside `IDLE`; `ARG0` and `ARG1` are latches; a write to a read-only
register is ignored; 13 and above are refused. That `ARG0` and `ARG1` may be written in any phase, and that a held command
carries the latches as they stood at the write, are the model's, log entry 12, and so is that a reserved `CMD` word is held
outside `IDLE` as any other, log entry 25. -/
def Obligations.RegisterWrites : Prop :=
  ∀ (s : State) (n : Nat) (w : Word) (data : List Byte) (rest : List HostInput),
    s.env.inputs = .write n w data :: rest →
    (n = 0 → s.phase ≠ .idle →
      step s = .next { s with
        waiting := s.waiting ++ [⟨w, s.arg0, s.arg1, data⟩], env := { s.env with inputs := rest } }) ∧
    (n = 0 → s.phase = .idle → ∀ i, decodeCommand ⟨w, s.arg0, s.arg1, data⟩ = .ok i →
      step s = exec i { s with env := { s.env with inputs := rest } }) ∧
    (n = 0 → s.phase = .idle → ∀ why, decodeCommand ⟨w, s.arg0, s.arg1, data⟩ = .error why →
      step s = .refused (.reservedCommand why)) ∧
    (n = 1 → step s = .next { s with arg0 := w, env := { s.env with inputs := rest } }) ∧
    (n = 2 → step s = .next { s with arg1 := w, env := { s.env with inputs := rest } }) ∧
    (3 ≤ n → n ≤ 12 → step s = .next { s with env := { s.env with inputs := rest } }) ∧
    (13 ≤ n → step s = .refused (.reservedRegister n))
end

