-- ==== Sys2Proof/Laws/Decode.lean ====
section
/-! SUPPORT. The laws of the formats: each word as a number, its fields, and what a successful decoding says of the bits. -/

namespace Sys2Proof

/-- A concatenation as a number. -/
theorem append_toNat {a b : Nat} (x : BitVec a) (y : BitVec b) : (x ++ y).toNat = x.toNat * 2 ^ b + y.toNat := by
  rw [BitVec.toNat_append, ← Nat.shiftLeft_add_eq_or_of_lt y.isLt, Nat.shiftLeft_eq]

/-- The packed descriptor as a number (R100). -/
theorem pack_toNat (d : Pd) : d.pack.toNat = 65536 * d.low.toNat + 32768 + d.high.toNat := by
  simp only [Pd.pack, append_toNat, BitVec.toNat_ofNat]
  omega

/-- The two fields of a packed word (R100). -/
theorem unpack_toNat (w : Word) : (Pd.unpack w).high.toNat = w.toNat % 32768 ∧ (Pd.unpack w).low.toNat = w.toNat / 65536 % 32768 := by
  simp [Pd.unpack, BitVec.extractLsb'_toNat, Nat.shiftRight_eq_div_pow]

/-- Two descriptors with the same durations are one. -/
theorem Pd_ext {d e : Pd} (h : d.high = e.high) (l : d.low = e.low) : d = e := by
  cases d; cases e; simp only at h l; subst h; subst l; rfl

/-- Unpacking undoes packing. -/
theorem unpack_pack (d : Pd) : Pd.unpack d.pack = d := by
  have hp := pack_toNat d
  have hu := unpack_toNat d.pack
  have := d.high.isLt
  have := d.low.isLt
  apply Pd_ext <;> apply BitVec.eq_of_toNat_eq <;> omega

/-- The two level bits of a packed descriptor (R100). -/
theorem pack_bits (d : Pd) : d.pack.getLsbD 31 = false ∧ d.pack.getLsbD 15 = true := by
  have := pack_toNat d
  have h1 := d.low.isLt
  have h2 := d.high.isLt
  simp only [BitVec.getLsbD, Nat.testBit_eq_decide_div_mod_eq, this]
  constructor <;> simp <;> omega

/-- A packed descriptor in range decodes to the symbol it is. -/
theorem decodePd_pack (tp : TimingProfile) (d : Pd) (hh : d.high ≠ 0) (hl : d.low ≠ 0) :
    decodePd tp d.pack = match tp.symbolOf d with | some i => .ok i | none => .error .notASymbol := by
  obtain ⟨h1, h2⟩ := pack_bits d
  unfold decodePd
  rw [h1, h2, unpack_pack, if_neg (by simp)]
  exact (if_neg (not_or.mpr ⟨hh, hl⟩)).trans (by cases tp.symbolOf d <;> rfl)

/-- The header as a number (R93). -/
theorem header_toNat (opc : Nibble) (c : Call) : (c.header opc).toNat = 4096 * c.tag1.toNat + 256 * c.tag0.toNat + 16 * c.argc.toNat + opc.toNat := by
  simp only [Call.header, append_toNat, BitVec.toNat_ofNat]
  omega

/-- A bit field as a number. -/
theorem extract_toNat (w : Word) (a b : Nat) : (w.extractLsb' a b).toNat = w.toNat / 2 ^ a % 2 ^ b := by
  simp [BitVec.extractLsb'_toNat, Nat.shiftRight_eq_div_pow]

/-- A bit field has a value when its number has. -/
theorem extract_eq (w : Word) (a b : Nat) (k : BitVec b) : w.extractLsb' a b = k ↔ w.toNat / 2 ^ a % 2 ^ b = k.toNat := by
  rw [← extract_toNat, BitVec.toNat_inj]

/-- The fields of the header (R93). -/
theorem header_fields (opc : Nibble) (c : Call) :
    (c.header opc).extractLsb' 0 4 = opc ∧ (c.header opc).extractLsb' 4 4 = c.argc ∧
    (c.header opc).extractLsb' 8 4 = c.tag0 ∧ (c.header opc).extractLsb' 12 4 = c.tag1 ∧ (c.header opc).extractLsb' 16 16 = 0#16 := by
  have hn := header_toNat opc c
  have := opc.isLt; have := c.argc.isLt; have := c.tag0.isLt; have := c.tag1.isLt
  refine ⟨?_, ?_, ?_, ?_, ?_⟩ <;> apply BitVec.eq_of_toNat_eq <;> rw [extract_toNat, hn] <;> (try rw [BitVec.toNat_ofNat]) <;> omega

/-- Reading back a presentation gives the call. -/
theorem present_call (opc : Nibble) (c : Call) : (c.present opc).call = c := by
  obtain ⟨h0, h1, h2, h3, h4⟩ := header_fields opc c
  simp [Call.present, Presented.call, h1, h2, h3]

/-- Data that fits is not cut. -/
theorem cutData_of_fits {c : Call} (h : c.dataFits = true) : c.cutData = c := by
  simp only [Call.dataFits, decide_eq_true_eq] at h
  simp only [Call.cutData, List.take_of_length_le h]

/-- A well-formed call, presented, decodes to itself. -/
theorem decodeCommand_present (opc : Nibble) (ho : opc = opcInitialize ∨ opc = opcShow) (c : Call) (hc : c.wf = true) :
    decodeCommand (c.present opc) = .ok (if opc = opcInitialize then .hostInitialize c else .hostShow c) := by
  obtain ⟨h0, h1, h2, h3, h4⟩ := header_fields opc c
  have hp := present_call opc c
  simp only [Call.wf, Bool.and_eq_true] at hc
  unfold decodeCommand
  rw [hp]
  simp only [show (c.present opc).cmd = c.header opc from rfl, h0, h4, cutData_of_fits hc.2, hc.1]
  rcases ho with rfl | rfl <;> simp [opcInitialize, opcShow]

/-- Everything a decoded command says of its words (R96). -/
theorem decodeCommand_ok {p : Presented} {i : Instr} (h : decodeCommand p = .ok i) :
    p.cmd.extractLsb' 16 16 = 0#16 ∧ p.call.oneData = true ∧
    ((p.cmd.extractLsb' 0 4 = opcInitialize ∧ i = .hostInitialize p.call.cutData) ∨
     (p.cmd.extractLsb' 0 4 = opcShow ∧ i = .hostShow p.call.cutData)) := by
  simp only [decodeCommand] at h
  split_ifs at h with h1 h2 h3 h5
  · simp only [Except.ok.injEq] at h
    exact ⟨by simpa using h1, by simpa using h3, .inl ⟨h5, h.symm⟩⟩
  · simp only [Except.ok.injEq] at h
    refine ⟨by simpa using h1, by simpa using h3, .inr ⟨?_, h.symm⟩⟩
    by_contra hc
    exact h2 ⟨h5, hc⟩

/-- A header with a zero upper half is its fields. -/
theorem header_of (p : Presented) (h : p.cmd.extractLsb' 16 16 = 0#16) (c : Call) (h1 : c.argc = p.call.argc) (h2 : c.tag0 = p.call.tag0) (h3 : c.tag1 = p.call.tag1) :
    c.header (p.cmd.extractLsb' 0 4) = p.cmd := by
  apply BitVec.eq_of_toNat_eq
  have f5 := congrArg BitVec.toNat h
  rw [header_toNat, h1, h2, h3]
  simp only [Presented.call]
  simp only [extract_toNat, BitVec.toNat_ofNat] at f5 ⊢
  have := p.cmd.isLt
  omega

/-- A command the port takes is one of the two. -/
theorem decodeCommand_host {p : Presented} {i : Instr} (h : decodeCommand p = .ok i) :
    ∃ c, i = .hostInitialize c ∨ i = .hostShow c := by
  obtain ⟨_, _, ⟨_, rfl⟩ | ⟨_, rfl⟩⟩ := decodeCommand_ok h
  · exact ⟨_, .inl rfl⟩
  · exact ⟨_, .inr rfl⟩

/-- A packed descriptor that decodes is one of the two symbols. -/
theorem decodePd_symbol {tp : TimingProfile} {d : Pd} {i : Instr} (h : decodePd tp d.pack = .ok i) :
    (i = .sym1 ∧ d = tp.symbol1) ∨ (i = .sym0 ∧ d = tp.symbol0) := by
  simp only [decodePd, TimingProfile.symbolOf, unpack_pack] at h
  split_ifs at h with h1 h2 h3 h4 <;> simp only [Except.ok.injEq] at h
  · exact .inl ⟨h.symm, h3⟩
  · exact .inr ⟨h.symm, h4⟩

end Sys2Proof
end

