-- ==== Sys2Proof/Laws/Encoder.lean ====
section
/-! SUPPORT. The laws of the Bit Encoder that later proofs cite: how long an encoded sequence is, what it is made of, and how
durations and encodings split along a sequence. -/

namespace Sys2Proof.Machine

@[simp] theorem encByte_length (tp : TimingProfile) (x : Byte) : (encByte tp x).length = 8 := rfl

@[simp] theorem encSeq_nil (tp : TimingProfile) : encSeq tp [] = [] := rfl

@[simp] theorem encSeq_cons (tp : TimingProfile) (x : Byte) (bs : List Byte) :
    encSeq tp (x :: bs) = encByte tp x ++ encSeq tp bs := rfl

/-- Eight descriptors a byte (R123). -/
@[simp] theorem encSeq_length (tp : TimingProfile) (bs : List Byte) : (encSeq tp bs).length = 8 * bs.length := by
  induction bs with
  | nil => rfl
  | cons x bs ih => simp [ih]; omega

theorem encBit_symbol (tp : TimingProfile) (b : Bool) : encBit tp b = tp.symbol0 ∨ encBit tp b = tp.symbol1 := by
  cases b <;> simp [encBit]

/-- The encoder writes nothing but the two symbols (R27). -/
theorem mem_encSeq {tp : TimingProfile} {bs : List Byte} {d : Pd} (h : d ∈ encSeq tp bs) :
    d = tp.symbol0 ∨ d = tp.symbol1 := by
  induction bs with
  | nil => simp at h
  | cons x bs ih =>
    simp only [encSeq_cons, List.mem_append] at h
    rcases h with h | h
    · simp only [encByte, List.mem_cons, List.not_mem_nil, or_false] at h
      rcases h with h | h | h | h | h | h | h | h <;> rw [h] <;> exact encBit_symbol _ _
    · exact ih h

/-- Element `m` of an encoded byte is the symbol of bit `7 - m` (R121). -/
theorem encByte_getElem? (tp : TimingProfile) (x : Byte) (m : Nat) (h : m < 8) :
    (encByte tp x)[m]? = some (encBit tp (x.getLsbD (7 - m))) := by
  obtain rfl | rfl | rfl | rfl | rfl | rfl | rfl | rfl :
    m = 0 ∨ m = 1 ∨ m = 2 ∨ m = 3 ∨ m = 4 ∨ m = 5 ∨ m = 6 ∨ m = 7 := by omega
  all_goals rfl

/-- Element `8 i + m` is element `m` of byte `i`. -/
theorem encSeq_getElem?_byte (tp : TimingProfile) {bs : List Byte} {i m : Nat} {x : Byte} (hx : bs[i]? = some x)
    (hm : m < 8) : (encSeq tp bs)[8 * i + m]? = some (encBit tp (x.getLsbD (7 - m))) := by
  induction bs generalizing i with
  | nil => simp at hx
  | cons y bs ih =>
    cases i with
    | zero =>
      simp only [List.getElem?_cons_zero, Option.some.injEq] at hx
      subst hx
      rw [encSeq_cons, List.getElem?_append_left (by simp; omega), Nat.mul_zero, Nat.zero_add]
      exact encByte_getElem? tp y m hm
    | succ i =>
      simp only [List.getElem?_cons_succ] at hx
      rw [encSeq_cons, List.getElem?_append_right (by simp; omega), encByte_length]
      rw [show 8 * (i + 1) + m - 8 = 8 * i + m by omega]
      exact ih hx

@[simp] theorem dur_append (a b : List Pd) : dur (a ++ b) = dur a + dur b := by
  induction a with
  | nil => simp [dur]
  | cons d a ih => simp [dur, ih]; omega

/-- Driving one more descriptor of a sequence takes that descriptor's ticks. -/
theorem dur_take_succ {seq : List Pd} {n : Nat} {d : Pd} (h : seq[n]? = some d) :
    dur (seq.take (n + 1)) = dur (seq.take n) + Pd.ticks d := by
  rw [List.take_add_one, h]
  simp [dur]

end Sys2Proof.Machine
end

