-- ==== Sys2Proof/Laws/Memory.lean ====
section
/-! SUPPORT. The laws of the sparse cells, of the pixel memory and of the pulse cells: read after write, and that every
operation keeps the canonical form and stays inside the buffer. -/

namespace Sys2Proof.Machine

section Cells

variable {α : Type}

theorem risingFrom_mono {lo lo' : Nat} (h : lo' ≤ lo) :
    ∀ {m : List (Nat × α)}, risingFrom lo m = true → risingFrom lo' m = true
  | [], _ => rfl
  | (a, _) :: m, hm => by
    simp only [risingFrom, Bool.and_eq_true, decide_eq_true_eq] at hm ⊢
    exact ⟨by omega, hm.2⟩

theorem cellAt_below {m : List (Nat × α)} {lo k : Nat} (hm : risingFrom lo m = true) (hk : k < lo) :
    cellAt m k = none := by
  induction m generalizing lo with
  | nil => rfl
  | cons c m ih =>
    obtain ⟨a, x⟩ := c
    simp only [risingFrom, Bool.and_eq_true, decide_eq_true_eq] at hm
    simp only [cellAt, show ¬ a = k by omega, if_false]
    exact ih hm.2 (by omega)

theorem cellAt_putCell_same (m : List (Nat × α)) (k : Nat) (v : α) : cellAt (putCell m k v) k = some v := by
  induction m with
  | nil => simp [putCell, cellAt]
  | cons c m ih =>
    obtain ⟨a, x⟩ := c
    simp only [putCell]
    split
    · simp [cellAt]
    · split
      · simp [cellAt]
      · simp only [cellAt, show ¬ a = k by omega, if_false, ih]

theorem cellAt_putCell_other (m : List (Nat × α)) {k i : Nat} (v : α) (h : i ≠ k) :
    cellAt (putCell m k v) i = cellAt m i := by
  induction m with
  | nil => simp [putCell, cellAt, h.symm]
  | cons c m ih =>
    obtain ⟨a, x⟩ := c
    simp only [putCell]
    split
    · simp [cellAt, h.symm]
    · split
      · rename_i h1 h2
        subst h2
        simp [cellAt, h.symm]
      · simp only [cellAt, ih]

theorem cellAt_dropCell_same {m : List (Nat × α)} {lo : Nat} (hm : risingFrom lo m = true) (k : Nat) :
    cellAt (dropCell m k) k = none := by
  induction m generalizing lo with
  | nil => rfl
  | cons c m ih =>
    obtain ⟨a, x⟩ := c
    simp only [risingFrom, Bool.and_eq_true, decide_eq_true_eq] at hm
    simp only [dropCell]
    split
    · exact cellAt_below hm.2 (by omega)
    · rename_i h
      simp only [cellAt, h, if_false, ih hm.2]

theorem cellAt_dropCell_other (m : List (Nat × α)) {k i : Nat} (h : i ≠ k) :
    cellAt (dropCell m k) i = cellAt m i := by
  induction m with
  | nil => rfl
  | cons c m ih =>
    obtain ⟨a, x⟩ := c
    simp only [dropCell]
    split
    · rename_i h1
      simp [cellAt, show ¬ a = i by omega]
    · simp only [cellAt, ih]

theorem risingFrom_putCell {m : List (Nat × α)} {lo k : Nat} (hm : risingFrom lo m = true) (hk : lo ≤ k) (v : α) :
    risingFrom lo (putCell m k v) = true := by
  induction m generalizing lo with
  | nil => simp [putCell, risingFrom, hk]
  | cons c m ih =>
    obtain ⟨a, x⟩ := c
    simp only [risingFrom, Bool.and_eq_true, decide_eq_true_eq] at hm
    simp only [putCell]
    split
    · simp only [risingFrom, Bool.and_eq_true, decide_eq_true_eq]
      exact ⟨hk, by omega, hm.2⟩
    · split
      · rename_i h2
        subst h2
        simp only [risingFrom, Bool.and_eq_true, decide_eq_true_eq]
        exact hm
      · simp only [risingFrom, Bool.and_eq_true, decide_eq_true_eq]
        exact ⟨hm.1, ih hm.2 (by omega)⟩

theorem risingFrom_dropCell {m : List (Nat × α)} {lo : Nat} (hm : risingFrom lo m = true) (k : Nat) :
    risingFrom lo (dropCell m k) = true := by
  induction m generalizing lo with
  | nil => rfl
  | cons c m ih =>
    obtain ⟨a, x⟩ := c
    simp only [risingFrom, Bool.and_eq_true, decide_eq_true_eq] at hm
    simp only [dropCell]
    split
    · exact risingFrom_mono (by omega) hm.2
    · simp only [risingFrom, Bool.and_eq_true, decide_eq_true_eq]
      exact ⟨hm.1, ih hm.2⟩

theorem mem_putCell {m : List (Nat × α)} {k : Nat} {v : α} {c : Nat × α} (h : c ∈ putCell m k v) :
    c = (k, v) ∨ c ∈ m := by
  induction m with
  | nil => simpa [putCell] using h
  | cons d m ih =>
    obtain ⟨a, x⟩ := d
    simp only [putCell] at h
    split at h
    · simpa using h
    · split at h
      · simp only [List.mem_cons] at h ⊢
        tauto
      · simp only [List.mem_cons] at h ⊢
        rcases h with h | h
        · exact .inr (.inl h)
        · rcases ih h with h | h
          · exact .inl h
          · exact .inr (.inr h)

theorem mem_of_mem_dropCell {m : List (Nat × α)} {k : Nat} {c : Nat × α} (h : c ∈ dropCell m k) : c ∈ m := by
  induction m with
  | nil => exact h
  | cons d m ih =>
    obtain ⟨a, x⟩ := d
    simp only [dropCell] at h
    split at h
    · exact .tail _ h
    · simp only [List.mem_cons] at h ⊢
      exact h.imp_right ih

theorem cellsBelow_putCell {hi k : Nat} {m : List (Nat × α)} (hm : cellsBelow hi m = true) (hk : k < hi) (v : α) :
    cellsBelow hi (putCell m k v) = true := by
  simp only [cellsBelow, List.all_eq_true, decide_eq_true_eq] at hm ⊢
  intro c hc
  rcases mem_putCell hc with rfl | hc
  · exact hk
  · exact hm c hc

theorem cellsBelow_dropCell {hi : Nat} {m : List (Nat × α)} (hm : cellsBelow hi m = true) (k : Nat) :
    cellsBelow hi (dropCell m k) = true := by
  simp only [cellsBelow, List.all_eq_true, decide_eq_true_eq] at hm ⊢
  exact fun c hc => hm c (mem_of_mem_dropCell hc)

end Cells

/-! ## The pixel memory -/

theorem Memory.wf_iff {m : Memory} :
    m.wf = true ↔ risingFrom 0 m = true ∧ ∀ c ∈ m, c.2 ≠ unwrittenByte := by
  simp [Memory.wf, List.all_eq_true]

theorem Memory.zeroed_wf : Memory.zeroed.wf = true := rfl

/-- A write keeps the canonical form. -/
theorem Memory.write_wf {m : Memory} (hm : m.wf = true) (i : Nat) (b : Byte) : (m.write i b).wf = true := by
  rw [Memory.wf_iff] at hm ⊢
  simp only [Memory.write]
  split
  · exact ⟨risingFrom_dropCell hm.1 i, fun c hc => hm.2 c (mem_of_mem_dropCell hc)⟩
  · rename_i hb
    refine ⟨risingFrom_putCell hm.1 (Nat.zero_le _) b, fun c hc => ?_⟩
    rcases mem_putCell hc with rfl | hc
    · exact hb
    · exact hm.2 c hc

theorem Memory.write_inside {hi : Nat} {m : Memory} (hm : cellsBelow hi m = true) {i : Nat} (h : i < hi) (b : Byte) :
    cellsBelow hi (m.write i b) = true := by
  simp only [Memory.write]
  split
  · exact cellsBelow_dropCell hm i
  · exact cellsBelow_putCell hm h b

/-- A cell reads as what was written to it. -/
theorem Memory.read_write_same {m : Memory} (hm : m.wf = true) (i : Nat) (b : Byte) : (m.write i b).read i = b := by
  rw [Memory.wf_iff] at hm
  simp only [Memory.read, Memory.write]
  split
  · rename_i hb
    simp [cellAt_dropCell_same hm.1, hb]
  · simp [cellAt_putCell_same]

/-- Every other cell reads as before. -/
theorem Memory.read_write_other (m : Memory) {i k : Nat} (b : Byte) (h : k ≠ i) : (m.write i b).read k = m.read k := by
  simp only [Memory.read, Memory.write]
  split
  · rw [cellAt_dropCell_other m h]
  · rw [cellAt_putCell_other m b h]

/-- An operation that writes a run of bytes keeps the canonical form. -/
theorem Memory.writeN_wf {m : Memory} (hm : m.wf = true) (i : Nat) (bs : List Byte) : (m.writeN i bs).wf = true := by
  induction bs generalizing m i with
  | nil => exact hm
  | cons b bs ih => exact ih (Memory.write_wf hm i b) (i + 1)

theorem Memory.writeN_inside {hi : Nat} {m : Memory} (hm : cellsBelow hi m = true) {i : Nat} {bs : List Byte}
    (h : i + bs.length ≤ hi) : cellsBelow hi (m.writeN i bs) = true := by
  induction bs generalizing m i with
  | nil => exact hm
  | cons b bs ih =>
    simp only [List.length_cons] at h
    exact ih (Memory.write_inside hm (by omega) b) (by omega)

/-- A cell of the run reads as the byte written there. -/
theorem Memory.read_writeN_inside {m : Memory} (hm : m.wf = true) {i k : Nat} {bs : List Byte}
    (h1 : i ≤ k) (h2 : k - i < bs.length) : (m.writeN i bs).read k = bs[k - i] := by
  induction bs generalizing m i with
  | nil => simp at h2
  | cons b bs ih =>
    have hw := Memory.write_wf hm i b
    simp only [Memory.writeN]
    by_cases hk : k = i
    · subst hk
      have : ∀ (bs : List Byte) (j : Nat) (m : Memory), k < j → (m.writeN j bs).read k = m.read k := by
        intro bs
        induction bs with
        | nil => intro j m _; rfl
        | cons c bs ih' =>
          intro j m hj
          simp only [Memory.writeN]
          rw [ih' (j + 1) _ (by omega), Memory.read_write_other _ _ (by omega)]
      rw [this bs (k + 1) _ (by omega), Memory.read_write_same hm]
      simp
    · simp only [List.length_cons] at h2
      rw [ih hw (i := i + 1) (by omega) (by omega)]
      have : k - i = (k - (i + 1)) + 1 := by omega
      simp [this]

/-- A cell outside the run reads as before. -/
theorem Memory.read_writeN_outside (m : Memory) {i k : Nat} {bs : List Byte}
    (h : k < i ∨ i + bs.length ≤ k) : (m.writeN i bs).read k = m.read k := by
  induction bs generalizing m i with
  | nil => rfl
  | cons b bs ih =>
    simp only [List.length_cons] at h
    simp only [Memory.writeN]
    rw [ih _ (by omega), Memory.read_write_other _ _ (by omega)]

@[simp] theorem Memory.readN_length (m : Memory) (i n : Nat) : (m.readN i n).length = n := by
  induction n generalizing i with
  | zero => rfl
  | succ n ih => simp [Memory.readN, ih]

theorem Memory.readN_getElem (m : Memory) (i n k : Nat) (h : k < (m.readN i n).length) :
    (m.readN i n)[k] = m.read (i + k) := by
  induction n generalizing i k with
  | zero => simp [Memory.readN] at h
  | succ n ih =>
    cases k with
    | zero => simp [Memory.readN]
    | succ k =>
      simp only [Memory.readN, List.getElem_cons_succ]
      rw [ih (i + 1) k]
      congr 1
      omega

/-- Reading back a run just written gives the run. -/
theorem Memory.readN_writeN {m : Memory} (hm : m.wf = true) (i : Nat) (bs : List Byte) :
    (m.writeN i bs).readN i bs.length = bs := by
  apply List.ext_getElem
  · simp
  · intro k h1 h2
    rw [Memory.readN_getElem, Memory.read_writeN_inside hm (by omega) (by omega)]
    simp

/-! ## The pulse cells -/

theorem Pulses.writeN_rising {m : Pulses} (hm : risingFrom 0 m = true) (j : Nat) (ps : List Pd) :
    risingFrom 0 (Pulses.writeN m j ps) = true := by
  induction ps generalizing m j with
  | nil => exact hm
  | cons p ps ih => exact ih (risingFrom_putCell hm (Nat.zero_le _) p) (j + 1)

theorem Pulses.writeN_inside {hi : Nat} {m : Pulses} (hm : cellsBelow hi m = true) {j : Nat} {ps : List Pd}
    (h : j + ps.length ≤ hi) : cellsBelow hi (Pulses.writeN m j ps) = true := by
  induction ps generalizing m j with
  | nil => exact hm
  | cons p ps ih =>
    simp only [List.length_cons] at h
    exact ih (cellsBelow_putCell hm (by omega) p) (by omega)

theorem Pulses.mem_writeN {m : Pulses} {j : Nat} {ps : List Pd} {c : Nat × Pd} (h : c ∈ Pulses.writeN m j ps) :
    c.2 ∈ ps ∨ c ∈ m := by
  induction ps generalizing m j with
  | nil => exact .inr h
  | cons p ps ih =>
    rcases ih h with h | h
    · exact .inl (.tail _ h)
    · rcases mem_putCell h with rfl | h
      · exact .inl (.head _)
      · exact .inr h

/-- A cell outside the run holds what it held. -/
theorem Pulses.cellAt_writeN_outside (m : Pulses) {j k : Nat} {ps : List Pd} (h : k < j ∨ j + ps.length ≤ k) :
    cellAt (Pulses.writeN m j ps) k = cellAt m k := by
  induction ps generalizing m j with
  | nil => rfl
  | cons p ps ih =>
    simp only [List.length_cons] at h
    simp only [Pulses.writeN]
    rw [ih _ (by omega), cellAt_putCell_other _ _ (by omega)]

/-- A cell of the run holds the descriptor written there. -/
theorem Pulses.cellAt_writeN_inside (m : Pulses) {j k : Nat} {ps : List Pd} (h1 : j ≤ k) (h2 : k < j + ps.length) :
    cellAt (Pulses.writeN m j ps) k = ps[k - j]? := by
  induction ps generalizing m j with
  | nil => simp at h2; omega
  | cons p ps ih =>
    simp only [List.length_cons] at h2
    simp only [Pulses.writeN]
    by_cases hk : k = j
    · subst hk
      rw [Pulses.cellAt_writeN_outside _ (.inl (by omega)), cellAt_putCell_same]
      simp
    · rw [ih _ (by omega) (by omega)]
      have : k - j = (k - (j + 1)) + 1 := by omega
      simp [this]

end Sys2Proof.Machine
end

