-- ==== Sys2Proof/Laws/Operands.lean ====
section
/-! SUPPORT. The argument checks of the two commands, read off the header's fields, and what the operands are once a check has
passed. -/

namespace Sys2Proof.Machine

theorem eq_tagInt (t : Nibble) : t = tagInt ↔ t.toNat = 1 := by rw [← BitVec.toNat_inj]; rfl
theorem eq_tagBytes (t : Nibble) : t = tagBytes ↔ t.toNat = 2 := by rw [← BitVec.toNat_inj]; rfl

/-- How many arguments a call carries is its `ARGC` (R93). -/
theorem callArgs_length (c : Call) : (callArgs c).length = c.argc.toNat := by
  unfold callArgs
  split
  · rename_i h; simp [h]
  · rename_i h; simp [h]
  · rename_i k h; simp [h]

/-- The checks of INITIALIZE on a call (R161, R162). -/
theorem initializeError_call (c : Call) :
    initializeError (callArgs c) =
      if c.argc.toNat ≠ 2 then some .wrongArgCount
      else if c.tag0.toNat ≠ 1 ∨ c.tag1.toNat ≠ 1 then some .wrongArgType
      else if c.arg1.toInt ≤ 0 then some .wrongArgType
      else none := by
  unfold callArgs
  split
  · rename_i h0; simp [h0, initializeError]
  · rename_i h0; simp [h0, initializeError]
  · rename_i k h0
    cases k with
    | succ k => simp [h0, List.replicate, initializeError]
    | zero =>
      simp only [h0, List.replicate, argVal, eq_tagInt]
      by_cases a : c.tag0.toNat = 1 <;> by_cases b : c.tag1.toNat = 1
      · simp [a, b, initializeError]
      all_goals
        simp only [a, b]
        split_ifs <;> simp_all [initializeError]

/-- The checks of SHOW on a call (R181, R182). -/
theorem showError_call (c : Call) (live : Bool) :
    showError (callArgs c) live =
      if c.argc.toNat ≠ 1 then some .wrongArgCount
      else if c.tag0.toNat ≠ 2 then some .wrongArgType
      else if live = false then some .notInitialized
      else none := by
  unfold callArgs
  split
  · rename_i h0; simp [h0, showError]
  · rename_i h0
    simp only [h0, argVal, eq_tagInt, eq_tagBytes]
    by_cases b : c.tag0.toNat = 2
    · cases live <;> simp [b, showError]
    · by_cases a : c.tag0.toNat = 1 <;> simp [a, b, showError]
  · rename_i k h0
    cases k <;> simp [h0, List.replicate, showError]

/-- A command that offers all its bytes is filled as it is. -/
theorem callFilled_of_none {c : Call} (h : callMissing c = 0) (n : Nat) : callFilled n c = c := by
  simp [callFilled, h]

/-- What filling adds: as many bytes as are missing, and nothing else (log entry 14). -/
theorem callFilled_bytes (n : Nat) (c : Call) :
    ∃ bs, bs.length = callMissing c ∧ callFilled n c = { c with data := c.data ++ bs } :=
  ⟨(List.range (callMissing c)).map (Config.freeByte n), by simp, rfl⟩

/-- The checks read the header and the registers, no byte of `DATA` (R161, R181). -/
theorem initializeError_data (c : Call) (bs : List Byte) :
    initializeError (callArgs { c with data := bs }) = initializeError (callArgs c) := by
  simp only [initializeError_call]

theorem showError_data (c : Call) (bs : List Byte) (live : Bool) :
    showError (callArgs { c with data := bs }) live = showError (callArgs c) live := by
  simp only [showError_call]

/-- Filling a short `DATA` moves nothing but the counter of free draws. -/
theorem dataDrawn_env (c : Call) (s : State) :
    ∃ k, (callMissing c = 0 → k = s.env.draws) ∧ s.dataDrawn c = { s with env := { s.env with draws := k } } := by
  unfold State.dataDrawn
  split
  · exact ⟨_, fun _ => rfl, rfl⟩
  · exact ⟨_, fun h => absurd h (by assumption), rfl⟩

/-- `copy_len` is within both the data and the buffer (R71, R183). -/
theorem State.copyLen_le (s : State) : s.copyLen ≤ s.showData.length ∧ s.copyLen ≤ pxCells s.ledCount := by
  simp [State.copyLen]

@[simp] theorem State.showData_take_length (s : State) : (s.showData.take s.copyLen).length = s.copyLen := by
  simp [State.copyLen]

end Sys2Proof.Machine
end

