-- ==== Sys2Proof/Laws/Ops.lean ====
section
/-! SUPPORT. What the shared operations over the oracles and the pulse buffer do, once each. -/

namespace Sys2Proof.Machine

/-! ## The oracles -/

/-- An answer written down is the answer given (R142). -/
theorem allocAnswer_written {s : State} {a : Bool} {rest : List Bool} (h : s.env.allocAnswers = a :: rest) :
    s.allocAnswer = a := by simp [State.allocAnswer, h]

/-- An answer written down is the answer given (R206). -/
theorem txAnswer_written {s : State} {a : Bool} {rest : List Bool} (h : s.env.txAnswers = a :: rest) :
    s.txAnswer = a := by simp [State.txAnswer, h]

/-- Nothing but the oracles' own lists moves when the allocator answers. -/
theorem allocAnswered_env (s : State) : ∃ e, e.inputs = s.env.inputs ∧ s.allocAnswered = { s with env := e } := by
  refine ⟨s.allocAnswered.env, ?_, ?_⟩ <;> (unfold State.allocAnswered; split <;> rfl)

/-- Nothing but the oracles' own lists moves when TX answers. -/
theorem txAnswered_env (s : State) : ∃ e, e.inputs = s.env.inputs ∧ s.txAnswered = { s with env := e } := by
  refine ⟨s.txAnswered.env, ?_, ?_⟩ <;> (unfold State.txAnswered; split <;> rfl)

/-! ## Reading the pulse buffer -/

@[simp] theorem plReadN_length (s : State) (j n : Nat) : (s.plReadN j n).length = n := by
  induction n generalizing j with
  | zero => rfl
  | succ n ih => simp [State.plReadN, ih]

theorem plReadN_getElem? (s : State) (j n k : Nat) (h : k < n) :
    (s.plReadN j n)[k]? = some (s.plRead (j + k)) := by
  induction n generalizing j k with
  | zero => omega
  | succ n ih =>
    cases k with
    | zero => simp [State.plReadN]
    | succ k =>
      simp only [State.plReadN, List.getElem?_cons_succ]
      rw [ih (j + 1) k (by omega)]
      congr 2; omega

theorem frame_length (s : State) : s.frame.length = s.txCount := by
  simp [State.frame, State.txCount, State.copyLen]

/-- Where the pulse buffer holds the frame, the frame is what is submitted (R186, R203). -/
theorem submission_eq {s : State} (h : ∀ j, j < s.txCount → s.plAt j = s.frame[j]?) : s.submission = s.frame := by
  have hlen := frame_length s
  apply List.ext_getElem?
  intro k
  by_cases hk : k < s.txCount
  · rw [State.submission, plReadN_getElem? _ _ _ _ hk, Nat.zero_add, State.plRead, h k hk,
      List.getElem?_eq_getElem (by omega)]
    rfl
  · rw [List.getElem?_eq_none (by rw [State.submission, plReadN_length]; omega), List.getElem?_eq_none (by omega)]

/-! ## Driving the line -/

/-- TX drives a descriptor that is left to drive (R207). -/
theorem drive_some {s : State} {f : Frame} (d : Pd) (h : s.txInflight = some f) (hl : f.driven < f.seq.length) :
    s.drive d =
      { s with
        txInflight := some { f with driven := f.driven + 1 }
        waitTimer := s.waitTimer + Pd.ticks d
        lineLow := true } := by
  simp only [State.drive, h, hl, if_true]

/-- With nothing left to drive nothing happens (R205). -/
theorem drive_done {s : State} (d : Pd) (h : ∀ f, s.txInflight = some f → f.seq.length ≤ f.driven) : s.drive d = s := by
  cases hf : s.txInflight with
  | none => simp only [State.drive, hf]
  | some f =>
    have := h f hf
    simp only [State.drive, hf, if_neg (show ¬ f.driven < f.seq.length by omega)]

/-! ## The wait bound -/

/-- The last tick within the bound is no later than the first tick at or past it (R11). -/
theorem waitLast_le_waitTicks (p : Params) : p.waitLast ≤ p.waitTicks := by
  unfold Params.waitLast Params.waitTicks
  rcases Nat.eq_zero_or_pos p.boundDen with h | h
  · simp [h]
  · exact Nat.div_le_div_right (by omega)

/-- A pause that begins before the bound lets the timer rise, and never past the bound (R286). -/
theorem txPause_timer {s : State} (f : Frame) (k : Nat) (h : s.waitTimer < s.par.waitTicks) :
    s.waitTimer ≤ (s.txPause f k).waitTimer ∧ (s.txPause f k).waitTimer ≤ s.par.waitTicks :=
  ⟨le_min (Nat.le_add_right _ _) h.le, Nat.min_le_right _ _⟩

end Sys2Proof.Machine
end

