-- ==== Sys2Proof/Laws/PerInstr.lean ====
section
/-! SUPPORT. A family of statements with one lemma per constructor of `Instr`. `TableBits`: the bits this model encodes an
instruction as are those that spec/opcode_table.json fixes for its row, whatever the operands and the profile. -/

namespace Sys2Proof.Laws.TableBits

/-- The row's `match` and `mask` in spec/opcode_table.json. -/
def row : Instr → Word × Word
  | .hostInitialize _ => (0x00000001, 0xFFFF000F)
  | .hostShow _ => (0x00000002, 0xFFFF000F)
  | .sym0 => (0x00008000, 0x80008000)
  | .sym1 => (0x00008000, 0x80008000)
  | .bufRelease => (0x2, 0xF)
  | .bufAllocPx => (0x3, 0xF)
  | .bufAllocPl => (0x4, 0xF)
  | .txConfigure => (0x5, 0xF)
  | .txInstall => (0x6, 0xF)
  | .bufCopy => (0x8, 0xF)
  | .bufFill => (0x9, 0xF)
  | .txSubmit => (0xA, 0xF)
  | .txWait => (0xB, 0xF)

/-- The bits that name the operation, as a word of the table's numbering. -/
def bits : Raw → Word
  | .cmd p => p.cmd
  | .pd w => w
  | .uop code => code.setWidth 32

/-- The encoding of an instruction has the bits its row fixes. -/
def Statement (i : Instr) : Prop := ∀ tp : TimingProfile, bits (encode tp i) &&& (row i).2 = (row i).1

/-- A header's low nibble is its `OPC` and its upper half is zero (R93). -/
theorem header_fixed (opc : Nibble) (c : Call) : c.header opc &&& 0xFFFF000F#32 = opc.setWidth 32 := by
  simp only [Call.header]
  ext i hi
  simp only [BitVec.getElem_and, BitVec.getElem_setWidth, BitVec.getElem_append]
  interval_cases i <;> simp

/-- The two level bits of a packed descriptor (R100, R106). -/
theorem pack_fixed (d : Pd) : d.pack &&& 0x80008000#32 = 0x00008000#32 := by
  simp only [Pd.pack]
  ext i hi
  simp only [BitVec.getElem_and, BitVec.getElem_append]
  interval_cases i <;> simp

theorem hostInitialize (c : Call) : Statement (.hostInitialize c) := fun _ => header_fixed _ c
theorem hostShow (c : Call) : Statement (.hostShow c) := fun _ => header_fixed _ c
theorem sym0 : Statement .sym0 := fun tp => pack_fixed tp.symbol0
theorem sym1 : Statement .sym1 := fun tp => pack_fixed tp.symbol1
theorem bufRelease : Statement .bufRelease := fun _ => by simp [bits, encode, row]
theorem bufAllocPx : Statement .bufAllocPx := fun _ => by simp [bits, encode, row]
theorem bufAllocPl : Statement .bufAllocPl := fun _ => by simp [bits, encode, row]
theorem txConfigure : Statement .txConfigure := fun _ => by simp [bits, encode, row]
theorem txInstall : Statement .txInstall := fun _ => by simp [bits, encode, row]
theorem bufCopy : Statement .bufCopy := fun _ => by simp [bits, encode, row]
theorem bufFill : Statement .bufFill := fun _ => by simp [bits, encode, row]
theorem txSubmit : Statement .txSubmit := fun _ => by simp [bits, encode, row]
theorem txWait : Statement .txWait := fun _ => by simp [bits, encode, row]

end Sys2Proof.Laws.TableBits
end

