-- ==== Sys2Proof/Laws/State.lean ====
section
/-! SUPPORT. For each named update of the state, what each field of the result is: true by unfolding, and tagged for `simp`,
so that no later proof unfolds an update. -/

namespace Sys2Proof.Machine

/-! ### `emit` -/

@[simp] theorem State.emit_slot (e : Event) (s : State) : (s.emit e).slot = s.slot := rfl
@[simp] theorem State.emit_phase (e : Event) (s : State) : (s.emit e).phase = s.phase := rfl
@[simp] theorem State.emit_faultCause (e : Event) (s : State) : (s.emit e).faultCause = s.faultCause := rfl
@[simp] theorem State.emit_cmd (e : Event) (s : State) : (s.emit e).cmd = s.cmd := rfl
@[simp] theorem State.emit_arg0 (e : Event) (s : State) : (s.emit e).arg0 = s.arg0 := rfl
@[simp] theorem State.emit_arg1 (e : Event) (s : State) : (s.emit e).arg1 = s.arg1 := rfl
@[simp] theorem State.emit_result (e : Event) (s : State) : (s.emit e).result = s.result := rfl
@[simp] theorem State.emit_txInflight (e : Event) (s : State) : (s.emit e).txInflight = s.txInflight := rfl
@[simp] theorem State.emit_txSignal (e : Event) (s : State) : (s.emit e).txSignal = s.txSignal := rfl
@[simp] theorem State.emit_waitTimer (e : Event) (s : State) : (s.emit e).waitTimer = s.waitTimer := rfl
@[simp] theorem State.emit_txCfg (e : Event) (s : State) : (s.emit e).txCfg = s.txCfg := rfl
@[simp] theorem State.emit_txInstalled (e : Event) (s : State) : (s.emit e).txInstalled = s.txInstalled := rfl
@[simp] theorem State.emit_lineLow (e : Event) (s : State) : (s.emit e).lineLow = s.lineLow := rfl
@[simp] theorem State.emit_heapLive (e : Event) (s : State) : (s.emit e).heapLive = s.heapLive := rfl
@[simp] theorem State.emit_hist (e : Event) (s : State) : (s.emit e).hist = s.hist ++ [e] := rfl
@[simp] theorem State.emit_waiting (e : Event) (s : State) : (s.emit e).waiting = s.waiting := rfl
@[simp] theorem State.emit_call (e : Event) (s : State) : (s.emit e).call = s.call := rfl
@[simp] theorem State.emit_newPx (e : Event) (s : State) : (s.emit e).newPx = s.newPx := rfl
@[simp] theorem State.emit_par (e : Event) (s : State) : (s.emit e).par = s.par := rfl
@[simp] theorem State.emit_env (e : Event) (s : State) : (s.emit e).env = s.env := rfl

/-! ### `goto` -/

@[simp] theorem State.goto_slot (p : Phase) (s : State) : (s.goto p).slot = s.slot := rfl
@[simp] theorem State.goto_phase (p : Phase) (s : State) : (s.goto p).phase = p := rfl
@[simp] theorem State.goto_faultCause (p : Phase) (s : State) : (s.goto p).faultCause = s.faultCause := rfl
@[simp] theorem State.goto_cmd (p : Phase) (s : State) : (s.goto p).cmd = s.cmd := rfl
@[simp] theorem State.goto_arg0 (p : Phase) (s : State) : (s.goto p).arg0 = s.arg0 := rfl
@[simp] theorem State.goto_arg1 (p : Phase) (s : State) : (s.goto p).arg1 = s.arg1 := rfl
@[simp] theorem State.goto_result (p : Phase) (s : State) : (s.goto p).result = s.result := rfl
@[simp] theorem State.goto_txInflight (p : Phase) (s : State) : (s.goto p).txInflight = s.txInflight := rfl
@[simp] theorem State.goto_txSignal (p : Phase) (s : State) : (s.goto p).txSignal = s.txSignal := rfl
@[simp] theorem State.goto_waitTimer (p : Phase) (s : State) : (s.goto p).waitTimer = s.waitTimer := rfl
@[simp] theorem State.goto_txCfg (p : Phase) (s : State) : (s.goto p).txCfg = s.txCfg := rfl
@[simp] theorem State.goto_txInstalled (p : Phase) (s : State) : (s.goto p).txInstalled = s.txInstalled := rfl
@[simp] theorem State.goto_lineLow (p : Phase) (s : State) : (s.goto p).lineLow = s.lineLow := rfl
@[simp] theorem State.goto_heapLive (p : Phase) (s : State) : (s.goto p).heapLive = s.heapLive := rfl
@[simp] theorem State.goto_hist (p : Phase) (s : State) : (s.goto p).hist = s.hist := rfl
@[simp] theorem State.goto_waiting (p : Phase) (s : State) : (s.goto p).waiting = s.waiting := rfl
@[simp] theorem State.goto_call (p : Phase) (s : State) : (s.goto p).call = s.call := rfl
@[simp] theorem State.goto_newPx (p : Phase) (s : State) : (s.goto p).newPx = s.newPx := rfl
@[simp] theorem State.goto_par (p : Phase) (s : State) : (s.goto p).par = s.par := rfl
@[simp] theorem State.goto_env (p : Phase) (s : State) : (s.goto p).env = s.env := rfl

/-! ### `respond` -/

@[simp] theorem State.respond_slot (c : ResultCode) (s : State) : (s.respond c).slot = s.slot := rfl
@[simp] theorem State.respond_phase (c : ResultCode) (s : State) : (s.respond c).phase = .idle := rfl
@[simp] theorem State.respond_faultCause (c : ResultCode) (s : State) : (s.respond c).faultCause = s.faultCause := rfl
@[simp] theorem State.respond_cmd (c : ResultCode) (s : State) : (s.respond c).cmd = s.cmd := rfl
@[simp] theorem State.respond_arg0 (c : ResultCode) (s : State) : (s.respond c).arg0 = s.arg0 := rfl
@[simp] theorem State.respond_arg1 (c : ResultCode) (s : State) : (s.respond c).arg1 = s.arg1 := rfl
@[simp] theorem State.respond_result (c : ResultCode) (s : State) : (s.respond c).result = some c := rfl
@[simp] theorem State.respond_txInflight (c : ResultCode) (s : State) : (s.respond c).txInflight = s.txInflight := rfl
@[simp] theorem State.respond_txSignal (c : ResultCode) (s : State) : (s.respond c).txSignal = s.txSignal := rfl
@[simp] theorem State.respond_waitTimer (c : ResultCode) (s : State) : (s.respond c).waitTimer = s.waitTimer := rfl
@[simp] theorem State.respond_txCfg (c : ResultCode) (s : State) : (s.respond c).txCfg = s.txCfg := rfl
@[simp] theorem State.respond_txInstalled (c : ResultCode) (s : State) : (s.respond c).txInstalled = s.txInstalled := rfl
@[simp] theorem State.respond_lineLow (c : ResultCode) (s : State) : (s.respond c).lineLow = s.lineLow := rfl
@[simp] theorem State.respond_heapLive (c : ResultCode) (s : State) : (s.respond c).heapLive = s.heapLive := rfl
@[simp] theorem State.respond_hist (c : ResultCode) (s : State) : (s.respond c).hist = s.hist ++ [.result c] := rfl
@[simp] theorem State.respond_waiting (c : ResultCode) (s : State) : (s.respond c).waiting = s.waiting := rfl
@[simp] theorem State.respond_call (c : ResultCode) (s : State) : (s.respond c).call = s.call := rfl
@[simp] theorem State.respond_newPx (c : ResultCode) (s : State) : (s.respond c).newPx = s.newPx := rfl
@[simp] theorem State.respond_par (c : ResultCode) (s : State) : (s.respond c).par = s.par := rfl
@[simp] theorem State.respond_env (c : ResultCode) (s : State) : (s.respond c).env = s.env := rfl

/-! ### `raiseFatal` -/

@[simp] theorem State.raiseFatal_slot (c : FatalCause) (s : State) : (s.raiseFatal c).slot = s.slot := rfl
@[simp] theorem State.raiseFatal_phase (c : FatalCause) (s : State) : (s.raiseFatal c).phase = .fault := rfl
@[simp] theorem State.raiseFatal_faultCause (c : FatalCause) (s : State) : (s.raiseFatal c).faultCause = some c := rfl
@[simp] theorem State.raiseFatal_cmd (c : FatalCause) (s : State) : (s.raiseFatal c).cmd = s.cmd := rfl
@[simp] theorem State.raiseFatal_arg0 (c : FatalCause) (s : State) : (s.raiseFatal c).arg0 = s.arg0 := rfl
@[simp] theorem State.raiseFatal_arg1 (c : FatalCause) (s : State) : (s.raiseFatal c).arg1 = s.arg1 := rfl
@[simp] theorem State.raiseFatal_result (c : FatalCause) (s : State) : (s.raiseFatal c).result = s.result := rfl
@[simp] theorem State.raiseFatal_txInflight (c : FatalCause) (s : State) : (s.raiseFatal c).txInflight = s.txInflight := rfl
@[simp] theorem State.raiseFatal_txSignal (c : FatalCause) (s : State) : (s.raiseFatal c).txSignal = s.txSignal := rfl
@[simp] theorem State.raiseFatal_waitTimer (c : FatalCause) (s : State) : (s.raiseFatal c).waitTimer = s.waitTimer := rfl
@[simp] theorem State.raiseFatal_txCfg (c : FatalCause) (s : State) : (s.raiseFatal c).txCfg = s.txCfg := rfl
@[simp] theorem State.raiseFatal_txInstalled (c : FatalCause) (s : State) : (s.raiseFatal c).txInstalled = s.txInstalled := rfl
@[simp] theorem State.raiseFatal_lineLow (c : FatalCause) (s : State) : (s.raiseFatal c).lineLow = s.lineLow := rfl
@[simp] theorem State.raiseFatal_heapLive (c : FatalCause) (s : State) : (s.raiseFatal c).heapLive = s.heapLive := rfl
@[simp] theorem State.raiseFatal_hist (c : FatalCause) (s : State) : (s.raiseFatal c).hist = s.hist ++ [.fatal c] := rfl
@[simp] theorem State.raiseFatal_waiting (c : FatalCause) (s : State) : (s.raiseFatal c).waiting = s.waiting := rfl
@[simp] theorem State.raiseFatal_call (c : FatalCause) (s : State) : (s.raiseFatal c).call = s.call := rfl
@[simp] theorem State.raiseFatal_newPx (c : FatalCause) (s : State) : (s.raiseFatal c).newPx = s.newPx := rfl
@[simp] theorem State.raiseFatal_par (c : FatalCause) (s : State) : (s.raiseFatal c).par = s.par := rfl
@[simp] theorem State.raiseFatal_env (c : FatalCause) (s : State) : (s.raiseFatal c).env = s.env := rfl

/-! ### `free` -/

@[simp] theorem State.free_slot (b : Block) (s : State) : (s.free b).slot = s.slot := rfl
@[simp] theorem State.free_phase (b : Block) (s : State) : (s.free b).phase = s.phase := rfl
@[simp] theorem State.free_faultCause (b : Block) (s : State) : (s.free b).faultCause = s.faultCause := rfl
@[simp] theorem State.free_cmd (b : Block) (s : State) : (s.free b).cmd = s.cmd := rfl
@[simp] theorem State.free_arg0 (b : Block) (s : State) : (s.free b).arg0 = s.arg0 := rfl
@[simp] theorem State.free_arg1 (b : Block) (s : State) : (s.free b).arg1 = s.arg1 := rfl
@[simp] theorem State.free_result (b : Block) (s : State) : (s.free b).result = s.result := rfl
@[simp] theorem State.free_txInflight (b : Block) (s : State) : (s.free b).txInflight = s.txInflight := rfl
@[simp] theorem State.free_txSignal (b : Block) (s : State) : (s.free b).txSignal = s.txSignal := rfl
@[simp] theorem State.free_waitTimer (b : Block) (s : State) : (s.free b).waitTimer = s.waitTimer := rfl
@[simp] theorem State.free_txCfg (b : Block) (s : State) : (s.free b).txCfg = s.txCfg := rfl
@[simp] theorem State.free_txInstalled (b : Block) (s : State) : (s.free b).txInstalled = s.txInstalled := rfl
@[simp] theorem State.free_lineLow (b : Block) (s : State) : (s.free b).lineLow = s.lineLow := rfl
@[simp] theorem State.free_heapLive (b : Block) (s : State) : (s.free b).heapLive = s.heapLive.erase b := rfl
@[simp] theorem State.free_hist (b : Block) (s : State) : (s.free b).hist = s.hist ++ [.free b.kind b.cells] := rfl
@[simp] theorem State.free_waiting (b : Block) (s : State) : (s.free b).waiting = s.waiting := rfl
@[simp] theorem State.free_call (b : Block) (s : State) : (s.free b).call = s.call := rfl
@[simp] theorem State.free_newPx (b : Block) (s : State) : (s.free b).newPx = s.newPx := rfl
@[simp] theorem State.free_par (b : Block) (s : State) : (s.free b).par = s.par := rfl
@[simp] theorem State.free_env (b : Block) (s : State) : (s.free b).env = s.env := rfl

/-! ### `allocAnswered` -/

@[simp] theorem State.allocAnswered_slot (s : State) : (s.allocAnswered).slot = s.slot := by unfold State.allocAnswered; split <;> rfl
@[simp] theorem State.allocAnswered_phase (s : State) : (s.allocAnswered).phase = s.phase := by unfold State.allocAnswered; split <;> rfl
@[simp] theorem State.allocAnswered_faultCause (s : State) : (s.allocAnswered).faultCause = s.faultCause := by unfold State.allocAnswered; split <;> rfl
@[simp] theorem State.allocAnswered_cmd (s : State) : (s.allocAnswered).cmd = s.cmd := by unfold State.allocAnswered; split <;> rfl
@[simp] theorem State.allocAnswered_arg0 (s : State) : (s.allocAnswered).arg0 = s.arg0 := by unfold State.allocAnswered; split <;> rfl
@[simp] theorem State.allocAnswered_arg1 (s : State) : (s.allocAnswered).arg1 = s.arg1 := by unfold State.allocAnswered; split <;> rfl
@[simp] theorem State.allocAnswered_result (s : State) : (s.allocAnswered).result = s.result := by unfold State.allocAnswered; split <;> rfl
@[simp] theorem State.allocAnswered_txInflight (s : State) : (s.allocAnswered).txInflight = s.txInflight := by unfold State.allocAnswered; split <;> rfl
@[simp] theorem State.allocAnswered_txSignal (s : State) : (s.allocAnswered).txSignal = s.txSignal := by unfold State.allocAnswered; split <;> rfl
@[simp] theorem State.allocAnswered_waitTimer (s : State) : (s.allocAnswered).waitTimer = s.waitTimer := by unfold State.allocAnswered; split <;> rfl
@[simp] theorem State.allocAnswered_txCfg (s : State) : (s.allocAnswered).txCfg = s.txCfg := by unfold State.allocAnswered; split <;> rfl
@[simp] theorem State.allocAnswered_txInstalled (s : State) : (s.allocAnswered).txInstalled = s.txInstalled := by unfold State.allocAnswered; split <;> rfl
@[simp] theorem State.allocAnswered_lineLow (s : State) : (s.allocAnswered).lineLow = s.lineLow := by unfold State.allocAnswered; split <;> rfl
@[simp] theorem State.allocAnswered_heapLive (s : State) : (s.allocAnswered).heapLive = s.heapLive := by unfold State.allocAnswered; split <;> rfl
@[simp] theorem State.allocAnswered_hist (s : State) : (s.allocAnswered).hist = s.hist := by unfold State.allocAnswered; split <;> rfl
@[simp] theorem State.allocAnswered_waiting (s : State) : (s.allocAnswered).waiting = s.waiting := by unfold State.allocAnswered; split <;> rfl
@[simp] theorem State.allocAnswered_call (s : State) : (s.allocAnswered).call = s.call := by unfold State.allocAnswered; split <;> rfl
@[simp] theorem State.allocAnswered_newPx (s : State) : (s.allocAnswered).newPx = s.newPx := by unfold State.allocAnswered; split <;> rfl
@[simp] theorem State.allocAnswered_par (s : State) : (s.allocAnswered).par = s.par := by unfold State.allocAnswered; split <;> rfl

/-! ### `txAnswered` -/

@[simp] theorem State.txAnswered_slot (s : State) : (s.txAnswered).slot = s.slot := by unfold State.txAnswered; split <;> rfl
@[simp] theorem State.txAnswered_phase (s : State) : (s.txAnswered).phase = s.phase := by unfold State.txAnswered; split <;> rfl
@[simp] theorem State.txAnswered_faultCause (s : State) : (s.txAnswered).faultCause = s.faultCause := by unfold State.txAnswered; split <;> rfl
@[simp] theorem State.txAnswered_cmd (s : State) : (s.txAnswered).cmd = s.cmd := by unfold State.txAnswered; split <;> rfl
@[simp] theorem State.txAnswered_arg0 (s : State) : (s.txAnswered).arg0 = s.arg0 := by unfold State.txAnswered; split <;> rfl
@[simp] theorem State.txAnswered_arg1 (s : State) : (s.txAnswered).arg1 = s.arg1 := by unfold State.txAnswered; split <;> rfl
@[simp] theorem State.txAnswered_result (s : State) : (s.txAnswered).result = s.result := by unfold State.txAnswered; split <;> rfl
@[simp] theorem State.txAnswered_txInflight (s : State) : (s.txAnswered).txInflight = s.txInflight := by unfold State.txAnswered; split <;> rfl
@[simp] theorem State.txAnswered_txSignal (s : State) : (s.txAnswered).txSignal = s.txSignal := by unfold State.txAnswered; split <;> rfl
@[simp] theorem State.txAnswered_waitTimer (s : State) : (s.txAnswered).waitTimer = s.waitTimer := by unfold State.txAnswered; split <;> rfl
@[simp] theorem State.txAnswered_txCfg (s : State) : (s.txAnswered).txCfg = s.txCfg := by unfold State.txAnswered; split <;> rfl
@[simp] theorem State.txAnswered_txInstalled (s : State) : (s.txAnswered).txInstalled = s.txInstalled := by unfold State.txAnswered; split <;> rfl
@[simp] theorem State.txAnswered_lineLow (s : State) : (s.txAnswered).lineLow = s.lineLow := by unfold State.txAnswered; split <;> rfl
@[simp] theorem State.txAnswered_heapLive (s : State) : (s.txAnswered).heapLive = s.heapLive := by unfold State.txAnswered; split <;> rfl
@[simp] theorem State.txAnswered_hist (s : State) : (s.txAnswered).hist = s.hist := by unfold State.txAnswered; split <;> rfl
@[simp] theorem State.txAnswered_waiting (s : State) : (s.txAnswered).waiting = s.waiting := by unfold State.txAnswered; split <;> rfl
@[simp] theorem State.txAnswered_call (s : State) : (s.txAnswered).call = s.call := by unfold State.txAnswered; split <;> rfl
@[simp] theorem State.txAnswered_newPx (s : State) : (s.txAnswered).newPx = s.newPx := by unfold State.txAnswered; split <;> rfl
@[simp] theorem State.txAnswered_par (s : State) : (s.txAnswered).par = s.par := by unfold State.txAnswered; split <;> rfl

/-! ### `txMoved` -/

@[simp] theorem State.txMoved_slot (s : State) : (s.txMoved).slot = s.slot := by unfold State.txMoved; split <;> rfl
@[simp] theorem State.txMoved_phase (s : State) : (s.txMoved).phase = s.phase := by unfold State.txMoved; split <;> rfl
@[simp] theorem State.txMoved_faultCause (s : State) : (s.txMoved).faultCause = s.faultCause := by unfold State.txMoved; split <;> rfl
@[simp] theorem State.txMoved_cmd (s : State) : (s.txMoved).cmd = s.cmd := by unfold State.txMoved; split <;> rfl
@[simp] theorem State.txMoved_arg0 (s : State) : (s.txMoved).arg0 = s.arg0 := by unfold State.txMoved; split <;> rfl
@[simp] theorem State.txMoved_arg1 (s : State) : (s.txMoved).arg1 = s.arg1 := by unfold State.txMoved; split <;> rfl
@[simp] theorem State.txMoved_result (s : State) : (s.txMoved).result = s.result := by unfold State.txMoved; split <;> rfl
@[simp] theorem State.txMoved_txInflight (s : State) : (s.txMoved).txInflight = s.txInflight := by unfold State.txMoved; split <;> rfl
@[simp] theorem State.txMoved_txSignal (s : State) : (s.txMoved).txSignal = s.txSignal := by unfold State.txMoved; split <;> rfl
@[simp] theorem State.txMoved_waitTimer (s : State) : (s.txMoved).waitTimer = s.waitTimer := by unfold State.txMoved; split <;> rfl
@[simp] theorem State.txMoved_txCfg (s : State) : (s.txMoved).txCfg = s.txCfg := by unfold State.txMoved; split <;> rfl
@[simp] theorem State.txMoved_txInstalled (s : State) : (s.txMoved).txInstalled = s.txInstalled := by unfold State.txMoved; split <;> rfl
@[simp] theorem State.txMoved_lineLow (s : State) : (s.txMoved).lineLow = s.lineLow := by unfold State.txMoved; split <;> rfl
@[simp] theorem State.txMoved_heapLive (s : State) : (s.txMoved).heapLive = s.heapLive := by unfold State.txMoved; split <;> rfl
@[simp] theorem State.txMoved_hist (s : State) : (s.txMoved).hist = s.hist := by unfold State.txMoved; split <;> rfl
@[simp] theorem State.txMoved_waiting (s : State) : (s.txMoved).waiting = s.waiting := by unfold State.txMoved; split <;> rfl
@[simp] theorem State.txMoved_call (s : State) : (s.txMoved).call = s.call := by unfold State.txMoved; split <;> rfl
@[simp] theorem State.txMoved_newPx (s : State) : (s.txMoved).newPx = s.newPx := by unfold State.txMoved; split <;> rfl
@[simp] theorem State.txMoved_par (s : State) : (s.txMoved).par = s.par := by unfold State.txMoved; split <;> rfl

/-! ### `picked` -/

@[simp] theorem State.picked_slot (s : State) : (s.picked).slot = s.slot := by unfold State.picked; split <;> rfl
@[simp] theorem State.picked_phase (s : State) : (s.picked).phase = s.phase := by unfold State.picked; split <;> rfl
@[simp] theorem State.picked_faultCause (s : State) : (s.picked).faultCause = s.faultCause := by unfold State.picked; split <;> rfl
@[simp] theorem State.picked_cmd (s : State) : (s.picked).cmd = s.cmd := by unfold State.picked; split <;> rfl
@[simp] theorem State.picked_arg0 (s : State) : (s.picked).arg0 = s.arg0 := by unfold State.picked; split <;> rfl
@[simp] theorem State.picked_arg1 (s : State) : (s.picked).arg1 = s.arg1 := by unfold State.picked; split <;> rfl
@[simp] theorem State.picked_result (s : State) : (s.picked).result = s.result := by unfold State.picked; split <;> rfl
@[simp] theorem State.picked_txInflight (s : State) : (s.picked).txInflight = s.txInflight := by unfold State.picked; split <;> rfl
@[simp] theorem State.picked_txSignal (s : State) : (s.picked).txSignal = s.txSignal := by unfold State.picked; split <;> rfl
@[simp] theorem State.picked_waitTimer (s : State) : (s.picked).waitTimer = s.waitTimer := by unfold State.picked; split <;> rfl
@[simp] theorem State.picked_txCfg (s : State) : (s.picked).txCfg = s.txCfg := by unfold State.picked; split <;> rfl
@[simp] theorem State.picked_txInstalled (s : State) : (s.picked).txInstalled = s.txInstalled := by unfold State.picked; split <;> rfl
@[simp] theorem State.picked_lineLow (s : State) : (s.picked).lineLow = s.lineLow := by unfold State.picked; split <;> rfl
@[simp] theorem State.picked_heapLive (s : State) : (s.picked).heapLive = s.heapLive := by unfold State.picked; split <;> rfl
@[simp] theorem State.picked_hist (s : State) : (s.picked).hist = s.hist := by unfold State.picked; split <;> rfl
@[simp] theorem State.picked_waiting (s : State) : (s.picked).waiting = s.waiting := by unfold State.picked; split <;> rfl
@[simp] theorem State.picked_call (s : State) : (s.picked).call = s.call := by unfold State.picked; split <;> rfl
@[simp] theorem State.picked_newPx (s : State) : (s.picked).newPx = s.newPx := by unfold State.picked; split <;> rfl
@[simp] theorem State.picked_par (s : State) : (s.picked).par = s.par := by unfold State.picked; split <;> rfl

/-! ### `drawn` -/

@[simp] theorem State.drawn_slot (s : State) : (s.drawn).slot = s.slot := rfl
@[simp] theorem State.drawn_phase (s : State) : (s.drawn).phase = s.phase := rfl
@[simp] theorem State.drawn_faultCause (s : State) : (s.drawn).faultCause = s.faultCause := rfl
@[simp] theorem State.drawn_cmd (s : State) : (s.drawn).cmd = s.cmd := rfl
@[simp] theorem State.drawn_arg0 (s : State) : (s.drawn).arg0 = s.arg0 := rfl
@[simp] theorem State.drawn_arg1 (s : State) : (s.drawn).arg1 = s.arg1 := rfl
@[simp] theorem State.drawn_result (s : State) : (s.drawn).result = s.result := rfl
@[simp] theorem State.drawn_txInflight (s : State) : (s.drawn).txInflight = s.txInflight := rfl
@[simp] theorem State.drawn_txSignal (s : State) : (s.drawn).txSignal = s.txSignal := rfl
@[simp] theorem State.drawn_waitTimer (s : State) : (s.drawn).waitTimer = s.waitTimer := rfl
@[simp] theorem State.drawn_txCfg (s : State) : (s.drawn).txCfg = s.txCfg := rfl
@[simp] theorem State.drawn_txInstalled (s : State) : (s.drawn).txInstalled = s.txInstalled := rfl
@[simp] theorem State.drawn_lineLow (s : State) : (s.drawn).lineLow = s.lineLow := rfl
@[simp] theorem State.drawn_heapLive (s : State) : (s.drawn).heapLive = s.heapLive := rfl
@[simp] theorem State.drawn_hist (s : State) : (s.drawn).hist = s.hist := rfl
@[simp] theorem State.drawn_waiting (s : State) : (s.drawn).waiting = s.waiting := rfl
@[simp] theorem State.drawn_call (s : State) : (s.drawn).call = s.call := rfl
@[simp] theorem State.drawn_newPx (s : State) : (s.drawn).newPx = s.newPx := rfl
@[simp] theorem State.drawn_par (s : State) : (s.drawn).par = s.par := rfl

/-! ### `nextInput` -/

@[simp] theorem State.nextInput_slot (s : State) : (s.nextInput).slot = s.slot := rfl
@[simp] theorem State.nextInput_phase (s : State) : (s.nextInput).phase = s.phase := rfl
@[simp] theorem State.nextInput_faultCause (s : State) : (s.nextInput).faultCause = s.faultCause := rfl
@[simp] theorem State.nextInput_cmd (s : State) : (s.nextInput).cmd = s.cmd := rfl
@[simp] theorem State.nextInput_arg0 (s : State) : (s.nextInput).arg0 = s.arg0 := rfl
@[simp] theorem State.nextInput_arg1 (s : State) : (s.nextInput).arg1 = s.arg1 := rfl
@[simp] theorem State.nextInput_result (s : State) : (s.nextInput).result = s.result := rfl
@[simp] theorem State.nextInput_txInflight (s : State) : (s.nextInput).txInflight = s.txInflight := rfl
@[simp] theorem State.nextInput_txSignal (s : State) : (s.nextInput).txSignal = s.txSignal := rfl
@[simp] theorem State.nextInput_waitTimer (s : State) : (s.nextInput).waitTimer = s.waitTimer := rfl
@[simp] theorem State.nextInput_txCfg (s : State) : (s.nextInput).txCfg = s.txCfg := rfl
@[simp] theorem State.nextInput_txInstalled (s : State) : (s.nextInput).txInstalled = s.txInstalled := rfl
@[simp] theorem State.nextInput_lineLow (s : State) : (s.nextInput).lineLow = s.lineLow := rfl
@[simp] theorem State.nextInput_heapLive (s : State) : (s.nextInput).heapLive = s.heapLive := rfl
@[simp] theorem State.nextInput_hist (s : State) : (s.nextInput).hist = s.hist := rfl
@[simp] theorem State.nextInput_waiting (s : State) : (s.nextInput).waiting = s.waiting := rfl
@[simp] theorem State.nextInput_call (s : State) : (s.nextInput).call = s.call := rfl
@[simp] theorem State.nextInput_newPx (s : State) : (s.nextInput).newPx = s.newPx := rfl
@[simp] theorem State.nextInput_par (s : State) : (s.nextInput).par = s.par := rfl
@[simp] theorem State.nextInput_env (s : State) : (s.nextInput).env = { s.env with inputs := s.env.inputs.tail } := rfl

/-! ### `alloc` -/

@[simp] theorem State.alloc_slot (kind : BlockKind) (cells : Nat) (ok : Bool) (s : State) : (s.alloc kind cells ok).slot = s.slot := by simp [State.alloc]
@[simp] theorem State.alloc_phase (kind : BlockKind) (cells : Nat) (ok : Bool) (s : State) : (s.alloc kind cells ok).phase = s.phase := by simp [State.alloc]
@[simp] theorem State.alloc_faultCause (kind : BlockKind) (cells : Nat) (ok : Bool) (s : State) : (s.alloc kind cells ok).faultCause = s.faultCause := by simp [State.alloc]
@[simp] theorem State.alloc_cmd (kind : BlockKind) (cells : Nat) (ok : Bool) (s : State) : (s.alloc kind cells ok).cmd = s.cmd := by simp [State.alloc]
@[simp] theorem State.alloc_arg0 (kind : BlockKind) (cells : Nat) (ok : Bool) (s : State) : (s.alloc kind cells ok).arg0 = s.arg0 := by simp [State.alloc]
@[simp] theorem State.alloc_arg1 (kind : BlockKind) (cells : Nat) (ok : Bool) (s : State) : (s.alloc kind cells ok).arg1 = s.arg1 := by simp [State.alloc]
@[simp] theorem State.alloc_result (kind : BlockKind) (cells : Nat) (ok : Bool) (s : State) : (s.alloc kind cells ok).result = s.result := by simp [State.alloc]
@[simp] theorem State.alloc_txInflight (kind : BlockKind) (cells : Nat) (ok : Bool) (s : State) : (s.alloc kind cells ok).txInflight = s.txInflight := by simp [State.alloc]
@[simp] theorem State.alloc_txSignal (kind : BlockKind) (cells : Nat) (ok : Bool) (s : State) : (s.alloc kind cells ok).txSignal = s.txSignal := by simp [State.alloc]
@[simp] theorem State.alloc_waitTimer (kind : BlockKind) (cells : Nat) (ok : Bool) (s : State) : (s.alloc kind cells ok).waitTimer = s.waitTimer := by simp [State.alloc]
@[simp] theorem State.alloc_txCfg (kind : BlockKind) (cells : Nat) (ok : Bool) (s : State) : (s.alloc kind cells ok).txCfg = s.txCfg := by simp [State.alloc]
@[simp] theorem State.alloc_txInstalled (kind : BlockKind) (cells : Nat) (ok : Bool) (s : State) : (s.alloc kind cells ok).txInstalled = s.txInstalled := by simp [State.alloc]
@[simp] theorem State.alloc_lineLow (kind : BlockKind) (cells : Nat) (ok : Bool) (s : State) : (s.alloc kind cells ok).lineLow = s.lineLow := by simp [State.alloc]
@[simp] theorem State.alloc_heapLive (kind : BlockKind) (cells : Nat) (ok : Bool) (s : State) : (s.alloc kind cells ok).heapLive = if ok then s.heapLive ++ [⟨kind, cells⟩] else s.heapLive := by simp [State.alloc]
@[simp] theorem State.alloc_hist (kind : BlockKind) (cells : Nat) (ok : Bool) (s : State) : (s.alloc kind cells ok).hist = s.hist ++ [.alloc kind cells ok] := by simp [State.alloc]
@[simp] theorem State.alloc_waiting (kind : BlockKind) (cells : Nat) (ok : Bool) (s : State) : (s.alloc kind cells ok).waiting = s.waiting := by simp [State.alloc]
@[simp] theorem State.alloc_call (kind : BlockKind) (cells : Nat) (ok : Bool) (s : State) : (s.alloc kind cells ok).call = s.call := by simp [State.alloc]
@[simp] theorem State.alloc_newPx (kind : BlockKind) (cells : Nat) (ok : Bool) (s : State) : (s.alloc kind cells ok).newPx = s.newPx := by simp [State.alloc]
@[simp] theorem State.alloc_par (kind : BlockKind) (cells : Nat) (ok : Bool) (s : State) : (s.alloc kind cells ok).par = s.par := by simp [State.alloc]

/-! ### `onSession` -/

@[simp] theorem State.onSession_slot (g : Session → Session) (s : State) : (s.onSession g).slot = s.slot.map g := rfl
@[simp] theorem State.onSession_phase (g : Session → Session) (s : State) : (s.onSession g).phase = s.phase := rfl
@[simp] theorem State.onSession_faultCause (g : Session → Session) (s : State) : (s.onSession g).faultCause = s.faultCause := rfl
@[simp] theorem State.onSession_cmd (g : Session → Session) (s : State) : (s.onSession g).cmd = s.cmd := rfl
@[simp] theorem State.onSession_arg0 (g : Session → Session) (s : State) : (s.onSession g).arg0 = s.arg0 := rfl
@[simp] theorem State.onSession_arg1 (g : Session → Session) (s : State) : (s.onSession g).arg1 = s.arg1 := rfl
@[simp] theorem State.onSession_result (g : Session → Session) (s : State) : (s.onSession g).result = s.result := rfl
@[simp] theorem State.onSession_txInflight (g : Session → Session) (s : State) : (s.onSession g).txInflight = s.txInflight := rfl
@[simp] theorem State.onSession_txSignal (g : Session → Session) (s : State) : (s.onSession g).txSignal = s.txSignal := rfl
@[simp] theorem State.onSession_waitTimer (g : Session → Session) (s : State) : (s.onSession g).waitTimer = s.waitTimer := rfl
@[simp] theorem State.onSession_txCfg (g : Session → Session) (s : State) : (s.onSession g).txCfg = s.txCfg := rfl
@[simp] theorem State.onSession_txInstalled (g : Session → Session) (s : State) : (s.onSession g).txInstalled = s.txInstalled := rfl
@[simp] theorem State.onSession_lineLow (g : Session → Session) (s : State) : (s.onSession g).lineLow = s.lineLow := rfl
@[simp] theorem State.onSession_heapLive (g : Session → Session) (s : State) : (s.onSession g).heapLive = s.heapLive := rfl
@[simp] theorem State.onSession_hist (g : Session → Session) (s : State) : (s.onSession g).hist = s.hist := rfl
@[simp] theorem State.onSession_waiting (g : Session → Session) (s : State) : (s.onSession g).waiting = s.waiting := rfl
@[simp] theorem State.onSession_call (g : Session → Session) (s : State) : (s.onSession g).call = s.call := rfl
@[simp] theorem State.onSession_newPx (g : Session → Session) (s : State) : (s.onSession g).newPx = s.newPx := rfl
@[simp] theorem State.onSession_par (g : Session → Session) (s : State) : (s.onSession g).par = s.par := rfl
@[simp] theorem State.onSession_env (g : Session → Session) (s : State) : (s.onSession g).env = s.env := rfl

/-! ### `hold` -/

@[simp] theorem State.hold_slot (p : Presented) (s : State) : (s.hold p).slot = s.slot := rfl
@[simp] theorem State.hold_phase (p : Presented) (s : State) : (s.hold p).phase = s.phase := rfl
@[simp] theorem State.hold_faultCause (p : Presented) (s : State) : (s.hold p).faultCause = s.faultCause := rfl
@[simp] theorem State.hold_cmd (p : Presented) (s : State) : (s.hold p).cmd = s.cmd := rfl
@[simp] theorem State.hold_arg0 (p : Presented) (s : State) : (s.hold p).arg0 = s.arg0 := rfl
@[simp] theorem State.hold_arg1 (p : Presented) (s : State) : (s.hold p).arg1 = s.arg1 := rfl
@[simp] theorem State.hold_result (p : Presented) (s : State) : (s.hold p).result = s.result := rfl
@[simp] theorem State.hold_txInflight (p : Presented) (s : State) : (s.hold p).txInflight = s.txInflight := rfl
@[simp] theorem State.hold_txSignal (p : Presented) (s : State) : (s.hold p).txSignal = s.txSignal := rfl
@[simp] theorem State.hold_waitTimer (p : Presented) (s : State) : (s.hold p).waitTimer = s.waitTimer := rfl
@[simp] theorem State.hold_txCfg (p : Presented) (s : State) : (s.hold p).txCfg = s.txCfg := rfl
@[simp] theorem State.hold_txInstalled (p : Presented) (s : State) : (s.hold p).txInstalled = s.txInstalled := rfl
@[simp] theorem State.hold_lineLow (p : Presented) (s : State) : (s.hold p).lineLow = s.lineLow := rfl
@[simp] theorem State.hold_heapLive (p : Presented) (s : State) : (s.hold p).heapLive = s.heapLive := rfl
@[simp] theorem State.hold_hist (p : Presented) (s : State) : (s.hold p).hist = s.hist := rfl
@[simp] theorem State.hold_waiting (p : Presented) (s : State) : (s.hold p).waiting = s.waiting ++ [p] := rfl
@[simp] theorem State.hold_call (p : Presented) (s : State) : (s.hold p).call = s.call := rfl
@[simp] theorem State.hold_newPx (p : Presented) (s : State) : (s.hold p).newPx = s.newPx := rfl
@[simp] theorem State.hold_par (p : Presented) (s : State) : (s.hold p).par = s.par := rfl
@[simp] theorem State.hold_env (p : Presented) (s : State) : (s.hold p).env = s.env := rfl

/-! ### `accept` -/

@[simp] theorem State.accept_slot (p : Presented) (c : Call) (e : Command) (k : Phase) (s : State) : (s.accept p c e k).slot = s.slot := rfl
@[simp] theorem State.accept_phase (p : Presented) (c : Call) (e : Command) (k : Phase) (s : State) : (s.accept p c e k).phase = k := rfl
@[simp] theorem State.accept_faultCause (p : Presented) (c : Call) (e : Command) (k : Phase) (s : State) : (s.accept p c e k).faultCause = s.faultCause := rfl
@[simp] theorem State.accept_cmd (p : Presented) (c : Call) (e : Command) (k : Phase) (s : State) : (s.accept p c e k).cmd = p.cmd := rfl
@[simp] theorem State.accept_arg0 (p : Presented) (c : Call) (e : Command) (k : Phase) (s : State) : (s.accept p c e k).arg0 = p.arg0 := rfl
@[simp] theorem State.accept_arg1 (p : Presented) (c : Call) (e : Command) (k : Phase) (s : State) : (s.accept p c e k).arg1 = p.arg1 := rfl
@[simp] theorem State.accept_result (p : Presented) (c : Call) (e : Command) (k : Phase) (s : State) : (s.accept p c e k).result = s.result := rfl
@[simp] theorem State.accept_txInflight (p : Presented) (c : Call) (e : Command) (k : Phase) (s : State) : (s.accept p c e k).txInflight = s.txInflight := rfl
@[simp] theorem State.accept_txSignal (p : Presented) (c : Call) (e : Command) (k : Phase) (s : State) : (s.accept p c e k).txSignal = s.txSignal := rfl
@[simp] theorem State.accept_waitTimer (p : Presented) (c : Call) (e : Command) (k : Phase) (s : State) : (s.accept p c e k).waitTimer = s.waitTimer := rfl
@[simp] theorem State.accept_txCfg (p : Presented) (c : Call) (e : Command) (k : Phase) (s : State) : (s.accept p c e k).txCfg = s.txCfg := rfl
@[simp] theorem State.accept_txInstalled (p : Presented) (c : Call) (e : Command) (k : Phase) (s : State) : (s.accept p c e k).txInstalled = s.txInstalled := rfl
@[simp] theorem State.accept_lineLow (p : Presented) (c : Call) (e : Command) (k : Phase) (s : State) : (s.accept p c e k).lineLow = s.lineLow := rfl
@[simp] theorem State.accept_heapLive (p : Presented) (c : Call) (e : Command) (k : Phase) (s : State) : (s.accept p c e k).heapLive = s.heapLive := rfl
@[simp] theorem State.accept_hist (p : Presented) (c : Call) (e : Command) (k : Phase) (s : State) : (s.accept p c e k).hist = s.hist ++ [.cmd e] := rfl
@[simp] theorem State.accept_waiting (p : Presented) (c : Call) (e : Command) (k : Phase) (s : State) : (s.accept p c e k).waiting = s.waiting := rfl
@[simp] theorem State.accept_call (p : Presented) (c : Call) (e : Command) (k : Phase) (s : State) : (s.accept p c e k).call = c := rfl
@[simp] theorem State.accept_newPx (p : Presented) (c : Call) (e : Command) (k : Phase) (s : State) : (s.accept p c e k).newPx = s.newPx := rfl
@[simp] theorem State.accept_par (p : Presented) (c : Call) (e : Command) (k : Phase) (s : State) : (s.accept p c e k).par = s.par := rfl
@[simp] theorem State.accept_env (p : Presented) (c : Call) (e : Command) (k : Phase) (s : State) : (s.accept p c e k).env = s.env := rfl

/-! ### `rst` -/

@[simp] theorem State.rst_slot (s : State) : s.rst.slot = none := rfl
@[simp] theorem State.rst_phase (s : State) : s.rst.phase = .idle := rfl
@[simp] theorem State.rst_faultCause (s : State) : s.rst.faultCause = none := rfl
@[simp] theorem State.rst_cmd (s : State) : s.rst.cmd = 0 := rfl
@[simp] theorem State.rst_arg0 (s : State) : s.rst.arg0 = 0 := rfl
@[simp] theorem State.rst_arg1 (s : State) : s.rst.arg1 = 0 := rfl
@[simp] theorem State.rst_result (s : State) : s.rst.result = none := rfl
@[simp] theorem State.rst_txInflight (s : State) : s.rst.txInflight = none := rfl
@[simp] theorem State.rst_txSignal (s : State) : s.rst.txSignal = none := rfl
@[simp] theorem State.rst_waitTimer (s : State) : s.rst.waitTimer = 0 := rfl
@[simp] theorem State.rst_txCfg (s : State) : s.rst.txCfg = none := rfl
@[simp] theorem State.rst_txInstalled (s : State) : s.rst.txInstalled = 0 := rfl
@[simp] theorem State.rst_lineLow (s : State) : s.rst.lineLow = false := rfl
@[simp] theorem State.rst_heapLive (s : State) : s.rst.heapLive = [] := rfl
@[simp] theorem State.rst_hist (s : State) : s.rst.hist = [] := rfl
@[simp] theorem State.rst_waiting (s : State) : s.rst.waiting = [] := rfl
@[simp] theorem State.rst_call (s : State) : s.rst.call = Call.none := rfl
@[simp] theorem State.rst_newPx (s : State) : s.rst.newPx = none := rfl
@[simp] theorem State.rst_par (s : State) : (s.rst).par = s.par := rfl
@[simp] theorem State.rst_env (s : State) : (s.rst).env = s.env := rfl

/-! ### `release`: the slot is emptied -/

@[simp] theorem State.release_slot (s : State) : (s.release).slot = none := by
  unfold State.release; split <;> simp_all
@[simp] theorem State.release_phase (s : State) : (s.release).phase = s.phase := by
  unfold State.release; split <;> simp_all
@[simp] theorem State.release_faultCause (s : State) : (s.release).faultCause = s.faultCause := by
  unfold State.release; split <;> simp_all
@[simp] theorem State.release_cmd (s : State) : (s.release).cmd = s.cmd := by
  unfold State.release; split <;> simp_all
@[simp] theorem State.release_arg0 (s : State) : (s.release).arg0 = s.arg0 := by
  unfold State.release; split <;> simp_all
@[simp] theorem State.release_arg1 (s : State) : (s.release).arg1 = s.arg1 := by
  unfold State.release; split <;> simp_all
@[simp] theorem State.release_result (s : State) : (s.release).result = s.result := by
  unfold State.release; split <;> simp_all
@[simp] theorem State.release_txInflight (s : State) : (s.release).txInflight = s.txInflight := by
  unfold State.release; split <;> simp_all
@[simp] theorem State.release_txSignal (s : State) : (s.release).txSignal = s.txSignal := by
  unfold State.release; split <;> simp_all
@[simp] theorem State.release_waitTimer (s : State) : (s.release).waitTimer = s.waitTimer := by
  unfold State.release; split <;> simp_all
@[simp] theorem State.release_txCfg (s : State) : (s.release).txCfg = s.txCfg := by
  unfold State.release; split <;> simp_all
@[simp] theorem State.release_txInstalled (s : State) : (s.release).txInstalled = s.txInstalled := by
  unfold State.release; split <;> simp_all
@[simp] theorem State.release_lineLow (s : State) : (s.release).lineLow = s.lineLow := by
  unfold State.release; split <;> simp_all
@[simp] theorem State.release_waiting (s : State) : (s.release).waiting = s.waiting := by
  unfold State.release; split <;> simp_all
@[simp] theorem State.release_call (s : State) : (s.release).call = s.call := by
  unfold State.release; split <;> simp_all
@[simp] theorem State.release_newPx (s : State) : (s.release).newPx = s.newPx := by
  unfold State.release; split <;> simp_all
@[simp] theorem State.release_par (s : State) : (s.release).par = s.par := by
  unfold State.release; split <;> simp_all
@[simp] theorem State.release_env (s : State) : (s.release).env = s.env := by
  unfold State.release; split <;> simp_all

/-! ### `drive` -/

@[simp] theorem State.drive_slot (d : Pd) (s : State) : (s.drive d).slot = s.slot := by
  unfold State.drive; split
  · split <;> rfl
  · rfl
@[simp] theorem State.drive_phase (d : Pd) (s : State) : (s.drive d).phase = s.phase := by
  unfold State.drive; split
  · split <;> rfl
  · rfl
@[simp] theorem State.drive_faultCause (d : Pd) (s : State) : (s.drive d).faultCause = s.faultCause := by
  unfold State.drive; split
  · split <;> rfl
  · rfl
@[simp] theorem State.drive_cmd (d : Pd) (s : State) : (s.drive d).cmd = s.cmd := by
  unfold State.drive; split
  · split <;> rfl
  · rfl
@[simp] theorem State.drive_arg0 (d : Pd) (s : State) : (s.drive d).arg0 = s.arg0 := by
  unfold State.drive; split
  · split <;> rfl
  · rfl
@[simp] theorem State.drive_arg1 (d : Pd) (s : State) : (s.drive d).arg1 = s.arg1 := by
  unfold State.drive; split
  · split <;> rfl
  · rfl
@[simp] theorem State.drive_result (d : Pd) (s : State) : (s.drive d).result = s.result := by
  unfold State.drive; split
  · split <;> rfl
  · rfl
@[simp] theorem State.drive_txSignal (d : Pd) (s : State) : (s.drive d).txSignal = s.txSignal := by
  unfold State.drive; split
  · split <;> rfl
  · rfl
@[simp] theorem State.drive_txCfg (d : Pd) (s : State) : (s.drive d).txCfg = s.txCfg := by
  unfold State.drive; split
  · split <;> rfl
  · rfl
@[simp] theorem State.drive_txInstalled (d : Pd) (s : State) : (s.drive d).txInstalled = s.txInstalled := by
  unfold State.drive; split
  · split <;> rfl
  · rfl
@[simp] theorem State.drive_heapLive (d : Pd) (s : State) : (s.drive d).heapLive = s.heapLive := by
  unfold State.drive; split
  · split <;> rfl
  · rfl
@[simp] theorem State.drive_hist (d : Pd) (s : State) : (s.drive d).hist = s.hist := by
  unfold State.drive; split
  · split <;> rfl
  · rfl
@[simp] theorem State.drive_waiting (d : Pd) (s : State) : (s.drive d).waiting = s.waiting := by
  unfold State.drive; split
  · split <;> rfl
  · rfl
@[simp] theorem State.drive_call (d : Pd) (s : State) : (s.drive d).call = s.call := by
  unfold State.drive; split
  · split <;> rfl
  · rfl
@[simp] theorem State.drive_newPx (d : Pd) (s : State) : (s.drive d).newPx = s.newPx := by
  unfold State.drive; split
  · split <;> rfl
  · rfl
@[simp] theorem State.drive_par (d : Pd) (s : State) : (s.drive d).par = s.par := by
  unfold State.drive; split
  · split <;> rfl
  · rfl
@[simp] theorem State.drive_env (d : Pd) (s : State) : (s.drive d).env = s.env := by
  unfold State.drive; split
  · split <;> rfl
  · rfl

/-! ### `txComplete` -/

@[simp] theorem State.txComplete_slot (f : Frame) (s : State) : (s.txComplete f).slot = s.slot := rfl
@[simp] theorem State.txComplete_phase (f : Frame) (s : State) : (s.txComplete f).phase = s.phase := rfl
@[simp] theorem State.txComplete_faultCause (f : Frame) (s : State) : (s.txComplete f).faultCause = s.faultCause := rfl
@[simp] theorem State.txComplete_cmd (f : Frame) (s : State) : (s.txComplete f).cmd = s.cmd := rfl
@[simp] theorem State.txComplete_arg0 (f : Frame) (s : State) : (s.txComplete f).arg0 = s.arg0 := rfl
@[simp] theorem State.txComplete_arg1 (f : Frame) (s : State) : (s.txComplete f).arg1 = s.arg1 := rfl
@[simp] theorem State.txComplete_result (f : Frame) (s : State) : (s.txComplete f).result = s.result := rfl
@[simp] theorem State.txComplete_txInflight (f : Frame) (s : State) : (s.txComplete f).txInflight = none := rfl
@[simp] theorem State.txComplete_txSignal (f : Frame) (s : State) : (s.txComplete f).txSignal = some .done := rfl
@[simp] theorem State.txComplete_waitTimer (f : Frame) (s : State) : (s.txComplete f).waitTimer = s.waitTimer := rfl
@[simp] theorem State.txComplete_txCfg (f : Frame) (s : State) : (s.txComplete f).txCfg = s.txCfg := rfl
@[simp] theorem State.txComplete_txInstalled (f : Frame) (s : State) : (s.txComplete f).txInstalled = s.txInstalled := rfl
@[simp] theorem State.txComplete_lineLow (f : Frame) (s : State) : (s.txComplete f).lineLow = true := rfl
@[simp] theorem State.txComplete_heapLive (f : Frame) (s : State) : (s.txComplete f).heapLive = s.heapLive := rfl
@[simp] theorem State.txComplete_hist (f : Frame) (s : State) : (s.txComplete f).hist = s.hist ++ [.wire f.pin f.seq] := rfl
@[simp] theorem State.txComplete_waiting (f : Frame) (s : State) : (s.txComplete f).waiting = s.waiting := rfl
@[simp] theorem State.txComplete_call (f : Frame) (s : State) : (s.txComplete f).call = s.call := rfl
@[simp] theorem State.txComplete_newPx (f : Frame) (s : State) : (s.txComplete f).newPx = s.newPx := rfl
@[simp] theorem State.txComplete_par (f : Frame) (s : State) : (s.txComplete f).par = s.par := rfl
@[simp] theorem State.txComplete_env (f : Frame) (s : State) : (s.txComplete f).env = s.env := rfl

/-! ### `txFail` -/

@[simp] theorem State.txFail_slot (s : State) : (s.txFail).slot = s.slot := rfl
@[simp] theorem State.txFail_phase (s : State) : (s.txFail).phase = s.phase := rfl
@[simp] theorem State.txFail_faultCause (s : State) : (s.txFail).faultCause = s.faultCause := rfl
@[simp] theorem State.txFail_cmd (s : State) : (s.txFail).cmd = s.cmd := rfl
@[simp] theorem State.txFail_arg0 (s : State) : (s.txFail).arg0 = s.arg0 := rfl
@[simp] theorem State.txFail_arg1 (s : State) : (s.txFail).arg1 = s.arg1 := rfl
@[simp] theorem State.txFail_result (s : State) : (s.txFail).result = s.result := rfl
@[simp] theorem State.txFail_txInflight (s : State) : (s.txFail).txInflight = none := rfl
@[simp] theorem State.txFail_txSignal (s : State) : (s.txFail).txSignal = some .err := rfl
@[simp] theorem State.txFail_waitTimer (s : State) : (s.txFail).waitTimer = s.waitTimer := rfl
@[simp] theorem State.txFail_txCfg (s : State) : (s.txFail).txCfg = s.txCfg := rfl
@[simp] theorem State.txFail_txInstalled (s : State) : (s.txFail).txInstalled = s.txInstalled := rfl
@[simp] theorem State.txFail_lineLow (s : State) : (s.txFail).lineLow = false := rfl
@[simp] theorem State.txFail_heapLive (s : State) : (s.txFail).heapLive = s.heapLive := rfl
@[simp] theorem State.txFail_hist (s : State) : (s.txFail).hist = s.hist := rfl
@[simp] theorem State.txFail_waiting (s : State) : (s.txFail).waiting = s.waiting := rfl
@[simp] theorem State.txFail_call (s : State) : (s.txFail).call = s.call := rfl
@[simp] theorem State.txFail_newPx (s : State) : (s.txFail).newPx = s.newPx := rfl
@[simp] theorem State.txFail_par (s : State) : (s.txFail).par = s.par := rfl
@[simp] theorem State.txFail_env (s : State) : (s.txFail).env = s.env := rfl

/-! ### `txPause` -/

@[simp] theorem State.txPause_slot (f : Frame) (k : Nat) (s : State) : (s.txPause f k).slot = s.slot := rfl
@[simp] theorem State.txPause_phase (f : Frame) (k : Nat) (s : State) : (s.txPause f k).phase = s.phase := rfl
@[simp] theorem State.txPause_faultCause (f : Frame) (k : Nat) (s : State) : (s.txPause f k).faultCause = s.faultCause := rfl
@[simp] theorem State.txPause_cmd (f : Frame) (k : Nat) (s : State) : (s.txPause f k).cmd = s.cmd := rfl
@[simp] theorem State.txPause_arg0 (f : Frame) (k : Nat) (s : State) : (s.txPause f k).arg0 = s.arg0 := rfl
@[simp] theorem State.txPause_arg1 (f : Frame) (k : Nat) (s : State) : (s.txPause f k).arg1 = s.arg1 := rfl
@[simp] theorem State.txPause_result (f : Frame) (k : Nat) (s : State) : (s.txPause f k).result = s.result := rfl
@[simp] theorem State.txPause_txInflight (f : Frame) (k : Nat) (s : State) : (s.txPause f k).txInflight = some { f with cut := f.opened } := rfl
@[simp] theorem State.txPause_txSignal (f : Frame) (k : Nat) (s : State) : (s.txPause f k).txSignal = s.txSignal := rfl
@[simp] theorem State.txPause_waitTimer (f : Frame) (k : Nat) (s : State) : (s.txPause f k).waitTimer = min (s.waitTimer + (k + 1)) s.par.waitTicks := rfl
@[simp] theorem State.txPause_txCfg (f : Frame) (k : Nat) (s : State) : (s.txPause f k).txCfg = s.txCfg := rfl
@[simp] theorem State.txPause_txInstalled (f : Frame) (k : Nat) (s : State) : (s.txPause f k).txInstalled = s.txInstalled := rfl
@[simp] theorem State.txPause_lineLow (f : Frame) (k : Nat) (s : State) : (s.txPause f k).lineLow = (s.lineLow && !f.opened) := rfl
@[simp] theorem State.txPause_heapLive (f : Frame) (k : Nat) (s : State) : (s.txPause f k).heapLive = s.heapLive := rfl
@[simp] theorem State.txPause_hist (f : Frame) (k : Nat) (s : State) : (s.txPause f k).hist = s.hist := rfl
@[simp] theorem State.txPause_waiting (f : Frame) (k : Nat) (s : State) : (s.txPause f k).waiting = s.waiting := rfl
@[simp] theorem State.txPause_call (f : Frame) (k : Nat) (s : State) : (s.txPause f k).call = s.call := rfl
@[simp] theorem State.txPause_newPx (f : Frame) (k : Nat) (s : State) : (s.txPause f k).newPx = s.newPx := rfl
@[simp] theorem State.txPause_par (f : Frame) (k : Nat) (s : State) : (s.txPause f k).par = s.par := rfl
@[simp] theorem State.txPause_env (f : Frame) (k : Nat) (s : State) : (s.txPause f k).env = s.env := rfl

/-! ### `txOverrun` -/

@[simp] theorem State.txOverrun_slot (f : Frame) (s : State) : (s.txOverrun f).slot = s.slot := rfl
@[simp] theorem State.txOverrun_phase (f : Frame) (s : State) : (s.txOverrun f).phase = s.phase := rfl
@[simp] theorem State.txOverrun_faultCause (f : Frame) (s : State) : (s.txOverrun f).faultCause = s.faultCause := rfl
@[simp] theorem State.txOverrun_cmd (f : Frame) (s : State) : (s.txOverrun f).cmd = s.cmd := rfl
@[simp] theorem State.txOverrun_arg0 (f : Frame) (s : State) : (s.txOverrun f).arg0 = s.arg0 := rfl
@[simp] theorem State.txOverrun_arg1 (f : Frame) (s : State) : (s.txOverrun f).arg1 = s.arg1 := rfl
@[simp] theorem State.txOverrun_result (f : Frame) (s : State) : (s.txOverrun f).result = s.result := rfl
@[simp] theorem State.txOverrun_txInflight (f : Frame) (s : State) : (s.txOverrun f).txInflight = some { f with cut := true } := rfl
@[simp] theorem State.txOverrun_txSignal (f : Frame) (s : State) : (s.txOverrun f).txSignal = s.txSignal := rfl
@[simp] theorem State.txOverrun_waitTimer (f : Frame) (s : State) : (s.txOverrun f).waitTimer = s.par.waitTicks := rfl
@[simp] theorem State.txOverrun_txCfg (f : Frame) (s : State) : (s.txOverrun f).txCfg = s.txCfg := rfl
@[simp] theorem State.txOverrun_txInstalled (f : Frame) (s : State) : (s.txOverrun f).txInstalled = s.txInstalled := rfl
@[simp] theorem State.txOverrun_lineLow (f : Frame) (s : State) : (s.txOverrun f).lineLow = false := rfl
@[simp] theorem State.txOverrun_heapLive (f : Frame) (s : State) : (s.txOverrun f).heapLive = s.heapLive := rfl
@[simp] theorem State.txOverrun_hist (f : Frame) (s : State) : (s.txOverrun f).hist = s.hist := rfl
@[simp] theorem State.txOverrun_waiting (f : Frame) (s : State) : (s.txOverrun f).waiting = s.waiting := rfl
@[simp] theorem State.txOverrun_call (f : Frame) (s : State) : (s.txOverrun f).call = s.call := rfl
@[simp] theorem State.txOverrun_newPx (f : Frame) (s : State) : (s.txOverrun f).newPx = s.newPx := rfl
@[simp] theorem State.txOverrun_par (f : Frame) (s : State) : (s.txOverrun f).par = s.par := rfl
@[simp] theorem State.txOverrun_env (f : Frame) (s : State) : (s.txOverrun f).env = s.env := rfl

/-! ### `dataDrawn` -/

@[simp] theorem State.dataDrawn_slot (c : Call) (s : State) : (s.dataDrawn c).slot = s.slot := by unfold State.dataDrawn; split <;> rfl
@[simp] theorem State.dataDrawn_phase (c : Call) (s : State) : (s.dataDrawn c).phase = s.phase := by unfold State.dataDrawn; split <;> rfl
@[simp] theorem State.dataDrawn_faultCause (c : Call) (s : State) : (s.dataDrawn c).faultCause = s.faultCause := by unfold State.dataDrawn; split <;> rfl
@[simp] theorem State.dataDrawn_cmd (c : Call) (s : State) : (s.dataDrawn c).cmd = s.cmd := by unfold State.dataDrawn; split <;> rfl
@[simp] theorem State.dataDrawn_arg0 (c : Call) (s : State) : (s.dataDrawn c).arg0 = s.arg0 := by unfold State.dataDrawn; split <;> rfl
@[simp] theorem State.dataDrawn_arg1 (c : Call) (s : State) : (s.dataDrawn c).arg1 = s.arg1 := by unfold State.dataDrawn; split <;> rfl
@[simp] theorem State.dataDrawn_result (c : Call) (s : State) : (s.dataDrawn c).result = s.result := by unfold State.dataDrawn; split <;> rfl
@[simp] theorem State.dataDrawn_txInflight (c : Call) (s : State) : (s.dataDrawn c).txInflight = s.txInflight := by unfold State.dataDrawn; split <;> rfl
@[simp] theorem State.dataDrawn_txSignal (c : Call) (s : State) : (s.dataDrawn c).txSignal = s.txSignal := by unfold State.dataDrawn; split <;> rfl
@[simp] theorem State.dataDrawn_waitTimer (c : Call) (s : State) : (s.dataDrawn c).waitTimer = s.waitTimer := by unfold State.dataDrawn; split <;> rfl
@[simp] theorem State.dataDrawn_txCfg (c : Call) (s : State) : (s.dataDrawn c).txCfg = s.txCfg := by unfold State.dataDrawn; split <;> rfl
@[simp] theorem State.dataDrawn_txInstalled (c : Call) (s : State) : (s.dataDrawn c).txInstalled = s.txInstalled := by unfold State.dataDrawn; split <;> rfl
@[simp] theorem State.dataDrawn_lineLow (c : Call) (s : State) : (s.dataDrawn c).lineLow = s.lineLow := by unfold State.dataDrawn; split <;> rfl
@[simp] theorem State.dataDrawn_heapLive (c : Call) (s : State) : (s.dataDrawn c).heapLive = s.heapLive := by unfold State.dataDrawn; split <;> rfl
@[simp] theorem State.dataDrawn_hist (c : Call) (s : State) : (s.dataDrawn c).hist = s.hist := by unfold State.dataDrawn; split <;> rfl
@[simp] theorem State.dataDrawn_waiting (c : Call) (s : State) : (s.dataDrawn c).waiting = s.waiting := by unfold State.dataDrawn; split <;> rfl
@[simp] theorem State.dataDrawn_call (c : Call) (s : State) : (s.dataDrawn c).call = s.call := by unfold State.dataDrawn; split <;> rfl
@[simp] theorem State.dataDrawn_newPx (c : Call) (s : State) : (s.dataDrawn c).newPx = s.newPx := by unfold State.dataDrawn; split <;> rfl
@[simp] theorem State.dataDrawn_par (c : Call) (s : State) : (s.dataDrawn c).par = s.par := by unfold State.dataDrawn; split <;> rfl


end Sys2Proof.Machine
end

