-- ==== Sys2Proof/Laws/Sequencer.lean ====
section
/-! SUPPORT. What one step can do, said once: `step_cases`. Every rule of the whole machine is proved from it, operation by
operation, without unfolding the sequencer. -/

namespace Sys2Proof.Machine

/-! ## What belongs to the host and the oracles -/

/-- `s'` is `s` but for what the host and the oracles own: the tapes, the held commands, the two argument latches. -/
def State.Beside (s s' : State) : Prop :=
  ∃ e w a b, s' = { s with env := e, waiting := w, arg0 := a, arg1 := b }

theorem State.Beside.refl (s : State) : s.Beside s := ⟨s.env, s.waiting, s.arg0, s.arg1, rfl⟩

theorem State.Beside.trans {s s' s'' : State} (h : s.Beside s') (h' : s'.Beside s'') : s.Beside s'' := by
  obtain ⟨e, w, a, b, rfl⟩ := h
  obtain ⟨e', w', a', b', rfl⟩ := h'
  exact ⟨e', w', a', b', rfl⟩

theorem beside_nextInput (s : State) : s.Beside s.nextInput := ⟨_, s.waiting, s.arg0, s.arg1, rfl⟩
theorem beside_drawn (s : State) : s.Beside s.drawn := ⟨_, s.waiting, s.arg0, s.arg1, rfl⟩
theorem beside_hold (p : Presented) (s : State) : s.Beside (s.hold p) := ⟨s.env, _, s.arg0, s.arg1, rfl⟩

theorem beside_waiting (w : List Presented) (s : State) : s.Beside { s with waiting := w } :=
  ⟨s.env, w, s.arg0, s.arg1, rfl⟩
theorem beside_arg0 (w : Word) (s : State) : s.Beside { s with arg0 := w } := ⟨s.env, s.waiting, w, s.arg1, rfl⟩
theorem beside_arg1 (w : Word) (s : State) : s.Beside { s with arg1 := w } := ⟨s.env, s.waiting, s.arg0, w, rfl⟩

theorem beside_txMoved (s : State) : s.Beside s.txMoved := by
  unfold State.txMoved; split <;> exact ⟨_, s.waiting, s.arg0, s.arg1, rfl⟩

theorem beside_dataDrawn (c : Call) (s : State) : s.Beside (s.dataDrawn c) := by
  unfold State.dataDrawn; split
  · exact .refl s
  · exact beside_drawn s

theorem beside_picked (s : State) : s.Beside s.picked := by
  unfold State.picked; split <;> exact ⟨_, s.waiting, s.arg0, s.arg1, rfl⟩

theorem beside_txAnswered (s : State) : s.Beside s.txAnswered := by
  unfold State.txAnswered; split <;> exact ⟨_, s.waiting, s.arg0, s.arg1, rfl⟩

theorem beside_allocAnswered (s : State) : s.Beside s.allocAnswered := by
  unfold State.allocAnswered; split <;> exact ⟨_, s.waiting, s.arg0, s.arg1, rfl⟩

/-! ## The operation of each phase -/

/-- What the sequencer fetches, phase by phase (R97, R110). -/
theorem coreFetch_eq (s : State) : coreFetch s =
    match s.phase with
    | .idle => none
    | .initCheck => some (.hostInitialize s.call)
    | .initRelease => some .bufRelease
    | .initAllocPx => some .bufAllocPx
    | .initAllocPl => some .bufAllocPl
    | .initTxConfigure => some .txConfigure
    | .initTxInstall => some .txInstall
    | .showCheck => some (.hostShow s.call)
    | .showCopy => some .bufCopy
    | .showEncode => some .bufFill
    | .showSubmit => some .txSubmit
    | .showWait => some .txWait
    | .fault => none := by
  unfold coreFetch
  cases s.phase <;> rfl

/-! ## The core -/

/-- What the core's step can leave, form by form (R31): each operation in its own phase, every outcome written out. `e` stands
for the tapes after the oracle's answer. -/
inductive CoreDoes (s : State) : State → Prop where
  | initFails (hp : s.phase = .initCheck) (code : ResultCode) (h : initializeError (callArgs s.call) = some code) :
      CoreDoes s { s with phase := .idle, result := some code, hist := s.hist ++ [.result code] }
  | initPasses (hp : s.phase = .initCheck) (h : initializeError (callArgs s.call) = none) :
      CoreDoes s { s with phase := .initRelease }
  | releasesNone (hp : s.phase = .initRelease) (h : s.slot = none) : CoreDoes s { s with phase := .initAllocPx }
  | releases (hp : s.phase = .initRelease) (x : Session) (h : s.slot = some x) :
      CoreDoes s { s with
        phase := .initAllocPx, slot := none
        heapLive := (s.heapLive.erase ⟨.px, pxCells x.ledCount⟩).erase ⟨.pl, plCells x.ledCount⟩
        hist := s.hist ++ [.free .px (pxCells x.ledCount), .free .pl (plCells x.ledCount)] }
  | pxGranted (hp : s.phase = .initAllocPx) (e : Env) :
      CoreDoes s { s with
        phase := .initAllocPl, newPx := some Memory.zeroed, env := e
        heapLive := s.heapLive ++ [⟨.px, pxCells s.callLeds⟩]
        hist := s.hist ++ [.alloc .px (pxCells s.callLeds) true] }
  | pxRefused (hp : s.phase = .initAllocPx) (e : Env) :
      CoreDoes s { s with
        phase := .idle, result := some .outOfMemory, env := e
        hist := s.hist ++ [.alloc .px (pxCells s.callLeds) false, .result .outOfMemory] }
  | plGranted (hp : s.phase = .initAllocPl) (e : Env) :
      CoreDoes s { s with
        phase := .initTxConfigure, newPx := none, env := e
        slot := some { pin := s.callPin, ledCount := s.callLeds, px := s.newPx.getD Memory.zeroed, pl := Pulses.fresh }
        heapLive := s.heapLive ++ [⟨.pl, plCells s.callLeds⟩]
        hist := s.hist ++ [.alloc .pl (plCells s.callLeds) true] }
  | plRefused (hp : s.phase = .initAllocPl) (e : Env) :
      CoreDoes s { s with
        phase := .idle, result := some .outOfMemory, newPx := none, env := e
        heapLive := s.heapLive.erase ⟨.px, pxCells s.callLeds⟩
        hist := s.hist ++
          [.alloc .pl (plCells s.callLeds) false, .free .px (pxCells s.callLeds), .result .outOfMemory] }
  | configured (hp : s.phase = .initTxConfigure) (e : Env) :
      CoreDoes s { s with
        phase := .initTxInstall, txCfg := some (.forPin s.pin), lineLow := decide (1 ≤ s.txInstalled), env := e
        hist := s.hist ++ [.txConfigure (.forPin s.pin) true] }
  | configureFails (hp : s.phase = .initTxConfigure) (e : Env) :
      CoreDoes s { s with
        phase := .fault, faultCause := some .txConfigure, env := e
        hist := s.hist ++ [.txConfigure (.forPin s.pin) false, .fatal .txConfigure] }
  | installed (hp : s.phase = .initTxInstall) (e : Env) :
      CoreDoes s { s with
        phase := .idle, result := some .ok, txInstalled := s.txInstalled + 1, lineLow := true, env := e
        hist := s.hist ++ [.txInstall true, .result .ok] }
  | installFails (hp : s.phase = .initTxInstall) (e : Env) :
      CoreDoes s { s with
        phase := .fault, faultCause := some .txInstall, env := e
        hist := s.hist ++ [.txInstall false, .fatal .txInstall] }
  | showFails (hp : s.phase = .showCheck) (code : ResultCode) (h : showError (callArgs s.call) s.live = some code) :
      CoreDoes s { s with phase := .idle, result := some code, hist := s.hist ++ [.result code] }
  | showPasses (hp : s.phase = .showCheck) (h : showError (callArgs s.call) s.live = none) :
      CoreDoes s { s with phase := .showCopy }
  | copies (hp : s.phase = .showCopy) :
      CoreDoes s { s with
        phase := .showEncode
        slot := s.slot.map fun x => { x with px := Memory.writeN x.px 0 (s.showData.take s.copyLen) } }
  | fills (hp : s.phase = .showEncode) :
      CoreDoes s { s with
        phase := .showSubmit
        slot := s.slot.map fun x =>
          { x with pl := Pulses.writeN x.pl 0 (encSeq s.par.tp (Memory.readN x.px 0 s.copyLen)) } }
  | submitted (hp : s.phase = .showSubmit) (e : Env) :
      CoreDoes s { s with
        phase := .showWait, txInflight := some { pin := s.txPin, seq := s.submission, driven := 0, cut := false }
        txSignal := none, waitTimer := 0, env := e
        hist := s.hist ++ [.txSubmit s.submission true] }
  | submitFails (hp : s.phase = .showSubmit) (e : Env) :
      CoreDoes s { s with
        phase := .fault, faultCause := some .txSubmit, env := e
        hist := s.hist ++ [.txSubmit s.submission false, .fatal .txSubmit] }
  | waitDone (hp : s.phase = .showWait) (h : s.txSignal = some .done) :
      CoreDoes s { s with phase := .idle, result := some .ok, hist := s.hist ++ [.txWait .done, .result .ok] }
  | waitErr (hp : s.phase = .showWait) (h : s.txSignal = some .err) :
      CoreDoes s { s with
        phase := .fault, faultCause := some .txWait, hist := s.hist ++ [.txWait .err, .fatal .txWait] }
  | waitTimeout (hp : s.phase = .showWait) (h : s.txSignal = none) (ht : s.par.waitTicks ≤ s.waitTimer) :
      CoreDoes s { s with
        phase := .fault, faultCause := some .txWaitTimeout, lineLow := false
        hist := s.hist ++ [.txWait .timeout, .fatal .txWaitTimeout] }
  | waitBlocked (hp : s.phase = .showWait) (h : s.txSignal = none) (ht : s.waitTimer < s.par.waitTicks) :
      CoreDoes s s

theorem allocAnswered_eq (s : State) : s.allocAnswered = { s with env := s.allocAnswered.env } := by
  unfold State.allocAnswered; split <;> rfl

theorem txAnswered_eq (s : State) : s.txAnswered = { s with env := s.txAnswered.env } := by
  unfold State.txAnswered; split <;> rfl

/-- The core, running the operation its phase stands for, does one of these. -/
theorem core_cases {s t : State} {i : Instr} (hf : coreFetch s = some i) (h : exec i s = .next t) : CoreDoes s t := by
  rw [coreFetch_eq] at hf
  cases hp : s.phase <;> simp only [hp, Option.some.injEq, reduceCtorEq] at hf <;> subst hf
  case initCheck =>
    simp only [exec, execHostInitialize, hp, Host.Outcome.next.injEq] at h
    subst h
    split
    · exact .initFails hp _ (by assumption)
    · exact .initPasses hp (by assumption)
  case showCheck =>
    simp only [exec, execHostShow, hp, Host.Outcome.next.injEq] at h
    subst h
    split
    · exact .showFails hp _ (by assumption)
    · exact .showPasses hp (by assumption)
  case initRelease =>
    simp only [exec, execBufRelease, State.release, Host.Outcome.next.injEq] at h
    subst h
    split
    · rename_i x hx
      simpa [State.goto, State.free, State.emit] using CoreDoes.releases hp x hx
    · exact .releasesNone hp (by assumption)
  case initAllocPx =>
    simp only [exec, execBufAllocPx, Host.Outcome.next.injEq, State.alloc] at h
    rw [allocAnswered_eq] at h
    subst h
    cases s.allocAnswer
    · simpa [State.respond, State.goto, State.emit] using CoreDoes.pxRefused hp s.allocAnswered.env
    · exact .pxGranted hp _
  case initAllocPl =>
    simp only [exec, execBufAllocPl, Host.Outcome.next.injEq, State.alloc] at h
    rw [allocAnswered_eq] at h
    subst h
    cases s.allocAnswer
    · simpa [State.respond, State.goto, State.emit, State.free] using CoreDoes.plRefused hp s.allocAnswered.env
    · exact .plGranted hp _
  case initTxConfigure =>
    simp only [exec, execTxConfigure, Host.Outcome.next.injEq] at h
    rw [txAnswered_eq] at h
    subst h
    cases s.txAnswer
    · simpa [State.raiseFatal, State.goto, State.emit] using CoreDoes.configureFails hp _
    · exact .configured hp _
  case initTxInstall =>
    simp only [exec, execTxInstall, Host.Outcome.next.injEq] at h
    rw [txAnswered_eq] at h
    subst h
    cases s.txAnswer
    · simpa [State.raiseFatal, State.goto, State.emit] using CoreDoes.installFails hp s.txAnswered.env
    · simpa [State.respond, State.goto, State.emit] using CoreDoes.installed hp s.txAnswered.env
  case showCopy =>
    simp only [exec, execBufCopy, Host.Outcome.next.injEq] at h
    subst h
    exact .copies hp
  case showEncode =>
    simp only [exec, execBufFill, Host.Outcome.next.injEq] at h
    subst h
    exact .fills hp
  case showSubmit =>
    simp only [exec, execTxSubmit, Host.Outcome.next.injEq] at h
    rw [txAnswered_eq] at h
    subst h
    cases s.txAnswer
    · simpa [State.raiseFatal, State.goto, State.emit] using CoreDoes.submitFails hp _
    · exact .submitted hp _
  case showWait =>
    simp only [exec, execTxWait, Host.Outcome.next.injEq] at h
    subst h
    split
    · rename_i hs
      simpa [State.respond, State.goto, State.emit] using CoreDoes.waitDone hp hs
    · rename_i hs
      simpa [State.raiseFatal, State.goto, State.emit] using CoreDoes.waitErr hp hs
    · rename_i hs
      split
      · rename_i ht
        simpa [State.raiseFatal, State.goto, State.emit] using CoreDoes.waitTimeout hp hs ht
      · exact .waitBlocked hp hs (by omega)

/-- `t` is `s` with a command accepted: its event, its latches and operands, the phase of its check. -/
def State.Accepts (s t : State) : Prop :=
  ∃ (s' : State) (p : Presented) (c : Call) (e : Command) (k : Phase), s.Beside s' ∧
    (k = .initCheck ∨ k = .showCheck) ∧
    t = { s' with
      phase := k, cmd := p.cmd, arg0 := p.arg0, arg1 := p.arg1, call := c, hist := s'.hist ++ [.cmd e] }

/-- A command taken in `IDLE` is accepted (R251). -/
theorem accept_cases {s t : State} {i : Instr} {c : Call} (hp : s.phase = .idle) (h : exec i s = .next t)
    (hi : i = .hostInitialize c ∨ i = .hostShow c) : s.Accepts t := by
  rcases hi with rfl | rfl
  · simp only [exec, execHostInitialize, hp, Host.Outcome.next.injEq] at h
    exact ⟨s.dataDrawn c, c.present opcInitialize, _, _, _, beside_dataDrawn c s, .inl rfl, h.symm⟩
  · simp only [exec, execHostShow, hp, Host.Outcome.next.injEq] at h
    exact ⟨s.dataDrawn c, c.present opcShow, _, _, _, beside_dataDrawn c s, .inr rfl, h.symm⟩

/-! ## The command port -/

/-- A command taken from the port is run in the state it was taken in. -/
theorem takeCommand_cases {p : Presented} {s t : State} (h : takeCommand p s = .next t) :
    ∃ i c, decodeCommand p = .ok i ∧ exec i s = .next t ∧ (i = .hostInitialize c ∨ i = .hostShow c) := by
  simp only [takeCommand, decode] at h
  split at h
  · rename_i i hi
    obtain ⟨c, hc⟩ := decodeCommand_host hi
    exact ⟨i, c, hi, h, hc⟩
  · cases h

/-! ## The transmitter -/

/-- The things TX can do with its frame (R205). -/
inductive TxDoes (f : Frame) (s : State) : State → Prop where
  /-- It drives the next descriptor, the one in the pulse buffer where that holds a value, within the bound. -/
  | drives (d : Pd) (hc : f.cut = false) (h : f.driven < f.seq.length)
      (hr : ∀ x, s.plAt f.driven = some x → x = d) (ht : s.waitTimer + Pd.ticks d ≤ s.par.waitLast) :
      TxDoes f s (s.drive d)
  /-- It begins a descriptor that does not end within the bound. -/
  | overruns (hc : f.cut = false) (h : f.driven < f.seq.length) : TxDoes f s (s.txOverrun f)
  /-- It has driven the whole frame, within the bound. -/
  | completes (hc : f.cut = false) (h : f.seq.length ≤ f.driven) (ht : s.waitTimer ≤ s.par.waitLast) :
      TxDoes f s (s.txComplete f)
  /-- It fails. -/
  | fails : TxDoes f s s.txFail
  /-- Time passes. -/
  | pauses (k : Nat) (ht : s.waitTimer < s.par.waitTicks) : TxDoes f s (s.txPause f k)

/-- When TX has a frame to work on. -/
theorem txFrame_some {s : State} {f : Frame} (h : s.txFrame = some f) :
    s.phase = .showWait ∧ s.txSignal = none ∧ s.txInflight = some f ∧ s.txInTime f s.txMove = true := by
  unfold State.txFrame at h
  split at h
  · rename_i h1 h2 h3
    split at h
    · simp only [Option.some.injEq] at h
      subst h
      exact ⟨h1, h2, h3, by assumption⟩
    · cases h
  · cases h

theorem txStep_cases {f : Frame} {s t : State} (hf : s.txFrame = some f) (h : txStep f s.nextInput = .next t) :
    ∃ s', s.Beside s' ∧ TxDoes f s' t := by
  obtain ⟨_, _, _, ht⟩ := txFrame_some hf
  have hb0 := (beside_nextInput s).trans (beside_txMoved _)
  unfold txStep at h
  split at h
  · rename_i hm
    have hm' : s.txMove = .go := hm
    unfold txGo at h
    split at h
    · rename_i hc
      simp only [Host.Outcome.next.injEq] at h
      subst h
      simp only [hm', State.txInTime, hc, true_or, if_true, decide_eq_true_eq] at ht
      exact ⟨_, hb0, .pauses 0 (by simpa using ht)⟩
    · rename_i hc
      split at h
      · rename_i hl
        have hb := hb0.trans (beside_drawn _)
        split at h
        · rename_i hfit
          refine ⟨_, hb, ?_⟩
          have hp : s.nextInput.txMoved.drawn.plAt f.driven = s.nextInput.plAt f.driven := by
            obtain ⟨e, w, a, b, hb'⟩ := (beside_txMoved s.nextInput).trans (beside_drawn _)
            rw [hb']; rfl
          have hpar : s.nextInput.txMoved.drawn.par = s.nextInput.par := by simp
          have hr : ∀ x, s.nextInput.txMoved.drawn.plAt f.driven = some x → x = s.nextInput.plRead f.driven := by
            intro x hx
            rw [hp] at hx
            simp [State.plRead, hx]
          have hfit' : s.nextInput.txMoved.drawn.waitTimer + Pd.ticks (s.nextInput.plRead f.driven) ≤
              s.nextInput.txMoved.drawn.par.waitLast := by simpa using hfit
          have hdr := TxDoes.drives _ (by simpa using hc) hl hr hfit'
          simp only [decode] at h
          split at h
          · rename_i i hi
            rcases decodePd_symbol hi with ⟨rfl, hd⟩ | ⟨rfl, hd⟩
            · simp only [exec, execSym1, Host.Outcome.next.injEq] at h
              subst h
              rw [hd, ← hpar] at hdr
              exact hdr
            · simp only [exec, execSym0, Host.Outcome.next.injEq] at h
              subst h
              rw [hd, ← hpar] at hdr
              exact hdr
          · simp only [Host.Outcome.next.injEq] at h
            subst h
            exact hdr
          · cases h
        · simp only [Host.Outcome.next.injEq] at h
          subst h
          exact ⟨_, hb, .overruns (by simpa using hc) hl⟩
      · rename_i hl
        simp only [Host.Outcome.next.injEq] at h
        subst h
        refine ⟨_, hb0, .completes (by simpa using hc) (by omega) ?_⟩
        simp only [hm', State.txInTime, if_neg (not_or.mpr ⟨hc, hl⟩)] at ht
        simpa using ht
  · simp only [Host.Outcome.next.injEq] at h
    subst h
    exact ⟨_, hb0, .fails⟩
  · rename_i k hm
    have hm' : s.txMove = .pause k := hm
    simp only [Host.Outcome.next.injEq] at h
    subst h
    simp only [hm', State.txInTime, decide_eq_true_eq] at ht
    exact ⟨_, hb0, .pauses k (by simpa using ht)⟩

/-! ## One step -/

/-- Everything a step that is no reset can do: the host or a free choice moves and nothing of the machine changes; or a
command is accepted in `IDLE`; or the core runs the operation its phase stands for; or TX moves. -/
theorem step_cases {s t : State} (h : step s = .next t) (hr : ∀ rest, s.env.inputs ≠ .rst :: rest) :
    s.Beside t ∨
    (s.phase = .idle ∧ s.Accepts t) ∨
    (∃ s', s.Beside s' ∧ CoreDoes s' t) ∨
    (∃ s' f, s.Beside s' ∧ s.phase = .showWait ∧ s.txSignal = none ∧ s.txInflight = some f ∧ TxDoes f s' t) := by
  have htake : ∀ (s0 : State) (p : Presented), s.Beside s0 → s.phase = .idle → takeCommand p s0 = .next t →
      s.Accepts t := by
    intro s0 p hb hi hp
    obtain ⟨i, c, _, he, hic⟩ := takeCommand_cases hp
    have hi0 : s0.phase = .idle := by
      obtain ⟨e, w, a, b, rfl⟩ := hb
      exact hi
    obtain ⟨s1, p, c, e, k, hb', hk, ht⟩ := accept_cases hi0 he hic
    exact ⟨s1, p, c, e, k, hb.trans hb', hk, ht⟩
  have hpresent : ∀ (s0 : State) (p : Presented), s.Beside s0 → presentCommand p s0 = .next t →
      s.Beside t ∨ (s.phase = .idle ∧ s.Accepts t) := by
    intro s0 p hb hp
    unfold presentCommand at hp
    split at hp
    · rename_i hi
      have hi0 : s.phase = .idle := by
        obtain ⟨e, w, a, b, rfl⟩ := hb
        exact hi
      exact .inr ⟨hi0, htake s0 p hb hi0 hp⟩
    · simp only [Host.Outcome.next.injEq] at hp
      subst hp
      exact .inl (hb.trans (beside_hold _ _))
  have hcore : coreStep s = .next t →
      s.Beside t ∨ (s.phase = .idle ∧ s.Accepts t) ∨ (∃ s', s.Beside s' ∧ CoreDoes s' t) := by
    intro hc
    unfold coreStep at hc
    split at hc
    · rename_i i hi
      exact .inr (.inr ⟨_, beside_nextInput s, core_cases (s := s.nextInput) hi hc⟩)
    · rename_i hi
      split at hc
      · split at hc
        · cases hc
        · simp only [Host.Outcome.next.injEq] at hc
          subst hc
          exact .inl (beside_nextInput s)
      · rename_i hnf
        have hidle : s.phase = .idle := by
          rw [coreFetch_eq] at hi
          cases hp : s.phase <;> simp_all
        unfold takeWaiting at hc
        split at hc
        · have hb := ((beside_nextInput s).trans (beside_picked _)).trans
            (beside_waiting (s.nextInput.waiting.eraseIdx s.nextInput.pickIndex) _)
          exact .inr (.inl ⟨hidle, htake _ _ hb hidle hc⟩)
        · simp only [Host.Outcome.next.injEq] at hc
          subst hc
          exact .inl (beside_nextInput s)
  have hhost : hostStep s = .next t → s.Beside t ∨ (s.phase = .idle ∧ s.Accepts t) := by
    intro h
    unfold hostStep at h
    split at h
    · rename_i hi
      exact absurd hi (hr _)
    · exact hpresent _ _ (beside_nextInput s) h
    · unfold writeReg at h
      split at h
      · exact hpresent _ _ (beside_nextInput s) h
      · simp only [Host.Outcome.next.injEq] at h
        subst h
        exact .inl ((beside_nextInput s).trans (beside_arg0 _ _))
      · simp only [Host.Outcome.next.injEq] at h
        subst h
        exact .inl ((beside_nextInput s).trans (beside_arg1 _ _))
      · split at h
        · simp only [Host.Outcome.next.injEq] at h
          subst h
          exact .inl (beside_nextInput s)
        · cases h
    · simp only [Host.Outcome.next.injEq] at h
      subst h
      exact .inl (beside_nextInput s)
    · simp only [Host.Outcome.next.injEq] at h
      subst h
      exact .inl (.refl s)
  unfold step at h
  split at h
  · exact (hhost h).imp_right .inl
  · exact (hcore h).imp_right fun h => h.imp_right .inl
  · unfold txTurn at h
    split at h
    · rename_i f hf
      obtain ⟨h1, h2, h3, _⟩ := txFrame_some hf
      obtain ⟨s', hb, hd⟩ := txStep_cases hf h
      exact .inr (.inr (.inr ⟨s', f, hb, h1, h2, h3, hd⟩))
    · exact (hcore h).imp_right fun h => h.imp_right .inl

/-- A step with reset next in line (R260). -/
theorem step_reset {s : State} {rest : List HostInput} (h : s.env.inputs = .rst :: rest) :
    step s = .next s.nextInput.rst := by
  simp only [step, State.mover, State.hostActs, h, hostStep, if_true]

end Sys2Proof.Machine
end

