-- ==== Sys2Proof/Tests/Slice0.lean ====
section
/-! SUPPORT. The model's own tests. Expected values come from spec/95_test_vectors.md (the vector is named in each docstring)
or are worked out by hand from the rule named. The `witness_` theorems show, for each statement that has hypotheses, concrete
states and operands that meet all of them together, each clause on its own. -/

namespace Sys2Proof.Tests

open Sys2Proof Sys2Proof.Machine Sys2Proof.Claims

/-! ## Small states -/

/-- The example profile `EX` of 95_test_vectors.md 2.0. -/
def exTp : TimingProfile := ⟨7, 16, 14, 12, 1000⟩
/-- `EX` with its tick of 50 ns and its bound of 100 ms. -/
def ex : Params := ⟨exTp, 50, 1, 100, 1⟩
/-- `EX2`, a tick of 12.5 ns. -/
def ex2 : Params := ⟨⟨32, 68, 64, 36, 4000⟩, 25, 2, 100, 1⟩
/-- `EX` with a wait bound of 15.5 ticks: 15.5 ms at a tick of 1 ms. -/
def exHalf : Params := ⟨exTp, 1000000, 1, 31, 2⟩
/-- A profile whose two symbols are one (V-EN-15). -/
def flatTp : TimingProfile := ⟨10, 15, 10, 15, 1⟩

/-- After reset, with `EX`. -/
def base : State := { State.reset with par := ex }

/-- A session on pin 5 with one LED, just created. -/
def live1 : State :=
  { base with
    slot := some ⟨5, 1, [], []⟩, txCfg := some (.forPin 5), txInstalled := 1, lineLow := true
    heapLive := [⟨.px, 3⟩, ⟨.pl, 24⟩] }

/-- What a failed allocation leaves of it: no session, TX and its line as they were (R164). -/
def noneLeft : State := { live1 with slot := none, heapLive := [], result := some .outOfMemory }

/-- The first session with two LEDs and `PX = [10, 20, 30, 40, 50, 60]` (hex). -/
def live2 : State :=
  { live1 with
    slot := some ⟨5, 2, [(0, 0x10), (1, 0x20), (2, 0x30), (3, 0x40), (4, 0x50), (5, 0x60)], []⟩
    heapLive := [⟨.px, 6⟩, ⟨.pl, 48⟩] }

/-- The call `initialize(pin, n)` (V-DE-1). -/
def initCall (pin n : Word) : Call := ⟨2, 1, 1, pin, n, []⟩
/-- The call `show(data)` (V-DE-2). -/
def showCall (data : List Byte) : Call := ⟨1, 2, 0, BitVec.ofNat 32 data.length, 0, data⟩

/-- The state in a phase. -/
def at_ (p : Phase) (s : State) : State := { s with phase := p }
/-- The state with the host about to do these things. -/
def asked (is : List HostInput) (s : State) : State := { s with env := { s.env with inputs := is } }
/-- The state with these answers of the allocator and of TX written down. -/
def told (as ts : List Bool) (ms : List TxMove) (s : State) : State :=
  { s with env := { s.env with allocAnswers := as, txAnswers := ts, txMoves := ms } }
/-- The state with a call in progress. -/
def calling (c : Call) (s : State) : State := { s with call := c }

/-- A SHOW of no bytes that TX has completed. -/
def emptyDone : State :=
  { live1 with
    phase := .showWait, call := showCall [], txSignal := some .done
    hist := [.txSubmit [] true, .wire 5 []] }

/-- The pulse buffer that holds the encoding of `0xFF`. -/
def onesPl : Pulses := (List.range 8).map fun j => (j, ⟨14, 12⟩)

/-- A frame of one byte `0xFF` in flight, its first descriptor not yet driven. -/
def flying : State :=
  { live1 with
    phase := .showWait, call := showCall [0xFF]
    slot := some ⟨5, 1, [(0, 0xFF)], onesPl⟩
    txInflight := some ⟨5, List.replicate 8 ⟨14, 12⟩, 0, false⟩
    hist := [.txSubmit (List.replicate 8 ⟨14, 12⟩) true] }

/-- The same on a build whose wait bound is one tick. -/
def tooLong : State := { flying with par := ⟨exTp, 1000000, 1, 1, 1⟩ }

/-- The next state of an outcome. -/
def after (o : Host.Outcome State Fault Refusal) : Option State :=
  match o with
  | .next t => some t
  | .fault _ => none
  | .refused _ => none

/-- What is refused. -/
def refusal (o : Host.Outcome State Fault Refusal) : Option Refusal :=
  match o with
  | .next _ => none
  | .fault _ => none
  | .refused r => some r

/-! ## Well-formedness: each check refuses an ill-formed term -/

/-- Two byte sequences (R105, V-DE-19). -/
theorem test_wf_two_byte_sequences :
    (Instr.hostInitialize ⟨2, 2, 2, 0, 0, []⟩).wf = false ∧ Call.oneData ⟨2, 2, 2, 0, 0, []⟩ = false := by decide

/-- `DATA` one byte too long; of its length, and one byte short (R95, log entry 14). -/
theorem test_wf_data_length :
    (Instr.hostShow ⟨1, 2, 0, 3, 0, [1, 2]⟩).wf = true ∧ (Instr.hostShow ⟨1, 2, 0, 3, 0, [1, 2, 3, 4]⟩).wf = false ∧
    (Instr.hostShow ⟨1, 2, 0, 3, 0, [1, 2, 3]⟩).wf = true := by decide

/-- With one argument the second tag is ignored (V-DE-20). -/
theorem test_wf_second_tag_ignored : (Instr.hostInitialize ⟨1, 2, 2, 0, 0, []⟩).wf = true := by decide

/-! ## Decoding, by words written out from the spec's encodings -/

/-- V-DE-1, V-DE-10: `TAG1 = 1, TAG0 = 1, ARGC = 2, OPC = 1`. -/
theorem test_decode_initialize :
    decode exTp (.cmd ⟨0b0000000000000000_0001_0001_0010_0001, 0xFFFFFFFF, 1, []⟩) =
      .ok (.hostInitialize (initCall 0xFFFFFFFF 1)) := by decide

/-- V-DE-2: `TAG0 = 2, ARGC = 1, OPC = 2`; `DATA` is cut to its `L` bytes. -/
theorem test_decode_show :
    decode exTp (.cmd ⟨0b0000000000000000_0000_0010_0001_0010, 3, 9, [1, 2, 3, 4]⟩) =
      .ok (.hostShow ⟨1, 2, 0, 3, 9, [1, 2, 3]⟩) := by decide

/-- V-DE-16 to V-DE-19, each by its own name. -/
theorem test_decode_reserved :
    decode exTp (.cmd ⟨0x00010212, 0, 0, []⟩) = .error .upperHalfNotZero ∧
    decode exTp (.cmd ⟨0x00000000, 0, 0, []⟩) = .error .reservedOperation ∧
    decode exTp (.cmd ⟨0x00000213, 0, 0, []⟩) = .error .reservedOperation ∧
    decode exTp (.cmd ⟨0x00002221, 0, 0, []⟩) = .error .twoByteSequences := by decide

/-- V-DE-20, V-DE-21: not reserved. -/
theorem test_decode_odd_counts :
    decode exTp (.cmd ⟨0x00002211, 3, 0, [7, 8, 9]⟩) = .ok (.hostInitialize ⟨1, 2, 2, 3, 0, [7, 8, 9]⟩) ∧
    decode exTp (.cmd ⟨0x000000F1, 0, 0, []⟩) = .ok (.hostInitialize ⟨15, 0, 0, 0, 0, []⟩) := by decide

/-- R101 with `EX`: `0 low=16 1 high=7`, and `0 low=12 1 high=14`. -/
theorem test_decode_symbols :
    decode exTp (.pd 0b0_000000000010000_1_000000000000111) = .ok .sym0 ∧
    decode exTp (.pd 0b0_000000000001100_1_000000000001110) = .ok .sym1 := by decide

/-- R106: both level bits, both durations; R101: a descriptor that is no symbol. -/
theorem test_decode_reserved_descriptors :
    decode exTp (.pd 0x80108007) = .error .levelsReserved ∧ decode exTp (.pd 0x00100007) = .error .levelsReserved ∧
    decode exTp (.pd 0x00008007) = .error .zeroDuration ∧ decode exTp (.pd 0x00108000) = .error .zeroDuration ∧
    decode exTp (.pd 0x00108008) = .error .notASymbol := by decide

/-- R97, R110: the nine codes. -/
theorem test_decode_uops :
    decode exTp (.uop 2) = .ok .bufRelease ∧ decode exTp (.uop 3) = .ok .bufAllocPx ∧
    decode exTp (.uop 4) = .ok .bufAllocPl ∧ decode exTp (.uop 5) = .ok .txConfigure ∧
    decode exTp (.uop 6) = .ok .txInstall ∧ decode exTp (.uop 8) = .ok .bufCopy ∧
    decode exTp (.uop 9) = .ok .bufFill ∧ decode exTp (.uop 10) = .ok .txSubmit ∧
    decode exTp (.uop 11) = .ok .txWait := by decide

/-- R97: the other seven codes name nothing. -/
theorem test_decode_uops_reserved :
    [0, 1, 7, 12, 13, 14, 15].all (fun c => decide (decode exTp (.uop c) = .error .noMicroOperation)) = true := by
  decide

/-! ## The encoder, the sizes, the parameters -/

/-- V-EN-7, V-EN-8: `0xA5` and `0x5A`, high durations. -/
theorem test_encode_byte :
    (encByte exTp 0xA5).map Pd.high = [14, 7, 14, 7, 7, 14, 7, 14] ∧
    (encByte exTp 0x5A).map Pd.high = [7, 14, 7, 14, 14, 7, 14, 7] := by decide

/-- V-EN-5: the packed words of `0x80`. -/
theorem test_encode_packed :
    (encByte exTp 0x80).map Pd.pack =
      [0x000C800E, 0x00108007, 0x00108007, 0x00108007, 0x00108007, 0x00108007, 0x00108007, 0x00108007] := by decide

/-- V-EN-9 to V-EN-12: durations with `EX`. -/
theorem test_durations :
    dur (encSeq exTp []) = 0 ∧ dur (encSeq exTp [0xFF, 0x00, 0x80]) = 579 ∧ dur (encSeq exTp [0x01, 0x02, 0x03]) = 564 ∧
    dur (encSeq exTp [0xAA, 0xBB, 0xCC, 0xDD]) = 796 := by decide

/-- R11 with `EX` and `EX2` (95_test_vectors.md 2.0). -/
theorem test_wait_ticks : ex.waitTicks = 2000000 ∧ ex2.waitTicks = 8000000 := by decide

/-- R11 exact: with a bound of 15.5 ticks, 15 is within it and 16 is the first tick past it. -/
theorem test_wait_bound_between_ticks : exHalf.waitLast = 15 ∧ exHalf.waitTicks = 16 := by decide

/-- V-BU-11, V-BU-12: sizes do not wrap. -/
theorem test_sizes :
    pxCells 1431655765 = 4294967295 ∧ plCells 1431655765 = 34359738360 ∧ pxCells 2147483647 = 6442450941 ∧
    plCells 2147483647 = 51539607528 := by decide

/-- The one form of a pixel buffer: a 0 written removes the entry, and the entries rise (R24). -/
theorem test_memory_form :
    Memory.write [(1, 5), (3, 7)] 1 0 = [(3, 7)] ∧ Memory.write [(1, 5), (3, 7)] 2 9 = [(1, 5), (2, 9), (3, 7)] ∧
    Memory.wf [(1, 5), (1, 7)] = false ∧ Memory.wf [(1, 0)] = false := by decide

/-! ## One operation at a time -/

/-- V-DE-8, V-DE-9: `led_count` 0 and -1 are `WRONG_ARG_TYPE`; V-DE-3, V-DE-5, V-DE-6: count before type. -/
theorem test_initialize_check :
    initializeError (callArgs (initCall 5 0)) = some .wrongArgType ∧
    initializeError (callArgs (initCall 5 0xFFFFFFFF)) = some .wrongArgType ∧
    initializeError (callArgs ⟨0, 0, 0, 5, 1, []⟩) = some .wrongArgCount ∧
    initializeError (callArgs ⟨3, 1, 1, 5, 1, []⟩) = some .wrongArgCount ∧
    initializeError (callArgs ⟨2, 3, 1, 5, 1, []⟩) = some .wrongArgType ∧
    initializeError (callArgs (initCall 0xFFFFFFFF 1)) = none := by decide

/-- V-DE-1: accepted with its event and its latches. -/
theorem test_initialize_accepted :
    ((after (exec (.hostInitialize (initCall 5 1)) base)).map fun t => (t.phase, t.cmd, t.arg0, t.arg1, t.hist)) =
      some (.initCheck, 0x1121, 5, 1, [.cmd ⟨.hostInitialize, [.int 5, .int 1]⟩]) := by decide

/-- V-DE-11 to V-DE-14, V-SQ-5: count, then type, then the precondition. -/
theorem test_show_check :
    showError (callArgs ⟨0, 0, 0, 0, 0, []⟩) false = some .wrongArgCount ∧
    showError (callArgs ⟨1, 1, 0, 7, 0, []⟩) false = some .wrongArgType ∧
    showError (callArgs ⟨1, 0, 0, 0, 0, []⟩) true = some .wrongArgType ∧
    showError (callArgs ⟨2, 2, 1, 0, 1, []⟩) true = some .wrongArgCount ∧
    showError (callArgs (showCall [1, 2, 3])) false = some .notInitialized ∧
    showError (callArgs (showCall [])) true = none := by decide

/-- R95, R107: one byte offered of three announced; the command is accepted with three (log entry 14). -/
theorem test_show_short_data :
    ((after (exec (.hostShow ⟨1, 2, 0, 3, 0, [0xAA]⟩) live1)).map fun t =>
      (t.phase, t.call.data.length, t.call.data.take 1, t.env.draws)) = some (.showCheck, 3, [0xAA], 1) := by decide

/-- V-SH-1: `RESULT = 0x14` and no session. -/
theorem test_show_not_initialized :
    ((after (exec (.hostShow (showCall [1, 2, 3])) (at_ .showCheck base))).map fun t =>
      (t.phase, t.resultWord, t.hist)) = some (.idle, 0x14, [.result .notInitialized]) := by decide

/-- R207 with `EX`: a clear bit takes 23 ticks, a set bit 26 (95_test_vectors.md 2.0). -/
theorem test_sym0_sym1 :
    ((after (exec .sym0 flying)).map fun t => (t.waitTimer, t.txInflight.map Frame.driven)) = some (23, some 1) ∧
    ((after (exec .sym1 flying)).map fun t => (t.waitTimer, t.txInflight.map Frame.driven)) = some (26, some 1) := by
  decide

/-- V-BU-1, V-BU-2. -/
theorem test_release :
    ((after (exec .bufRelease (at_ .initRelease base))).map fun t => (t.slot, t.heapLive, t.hist)) =
      some (none, [], []) ∧
    ((after (exec .bufRelease (at_ .initRelease live1))).map fun t => (t.slot, t.heapLive, t.hist)) =
      some (none, [], [.free .px 3, .free .pl 24]) := by decide

/-- R164, R165: a failed allocation after a release leaves the line and TX's record as the old session left them. -/
theorem test_failed_alloc_line :
    ((after (exec .bufRelease (at_ .initRelease live1))).bind fun t =>
      (after (exec .bufAllocPx (told [false] [] [] t))).map fun u => (u.result, u.lineLow, u.txCfg)) =
      some (some .outOfMemory, true, some (.forPin 5)) := by decide

/-- R208, R232: so does a failed configure, after an install and before the first. -/
theorem test_failed_configure_line :
    ((after (exec .txConfigure (told [] [false] [] live1))).map fun t => (t.faultCause, t.lineLow, t.txCfg)) =
      some (some .txConfigure, true, some (.forPin 5)) ∧
    ((after (exec .txConfigure (told [] [false] [] base))).map fun t => (t.faultCause, t.lineLow, t.txCfg)) =
      some (some .txConfigure, false, none) := by decide

/-- V-BU-3, V-BU-4. -/
theorem test_alloc_px :
    ((after (exec .bufAllocPx (told [true] [] [] (calling (initCall 5 2) base)))).map fun t =>
      (t.newPx, t.slot, t.hist)) = some (some [], none, [.alloc .px 6 true]) ∧
    ((after (exec .bufAllocPx (told [false] [] [] (calling (initCall 5 2) base)))).map fun t =>
      (t.newPx, t.heapLive, t.hist)) = some (none, [], [.alloc .px 6 false, .result .outOfMemory]) := by decide

/-- V-BU-5, V-BU-6. -/
theorem test_alloc_pl :
    ((after (exec .bufAllocPl (told [true] [] []
        { calling (initCall 5 2) base with newPx := some [], heapLive := [⟨.px, 6⟩] }))).map fun t =>
      (t.slot, t.heapLive, t.hist)) =
      some (some ⟨5, 2, [], []⟩, [⟨.px, 6⟩, ⟨.pl, 48⟩], [.alloc .pl 48 true]) ∧
    ((after (exec .bufAllocPl (told [false] [] []
        { calling (initCall 5 2) base with newPx := some [], heapLive := [⟨.px, 6⟩] }))).map fun t =>
      (t.slot, t.heapLive, t.hist)) =
      some (none, [], [.alloc .pl 48 false, .free .px 6, .result .outOfMemory]) := by decide

/-- V-IN-8: `STATUS = 0x1F5`, `RESULT = 0`, both blocks still live. -/
theorem test_configure_fails :
    ((after (exec .txConfigure (told [] [false] [] (at_ .initTxConfigure live1)))).map fun t =>
      (t.statusWord, t.resultWord, t.heapLive)) = some (0x000001F5, 0, [⟨.px, 3⟩, ⟨.pl, 24⟩]) := by decide

/-- V-IN-1: the record of R103. -/
theorem test_configure :
    ((after (exec .txConfigure (told [] [true] [] { at_ .initTxConfigure live1 with txCfg := none }))).map fun t =>
      (t.phase, t.txCfg)) =
      some (.initTxInstall, some ⟨5, .transmit, .disabledToLow, .none, .off⟩) := by decide

/-- V-IN-1, V-IN-9: `STATUS = 1`, `RESULT = 0x10`; cause 2. -/
theorem test_install :
    ((after (exec .txInstall (told [] [true] [] (at_ .initTxInstall live1)))).map fun t =>
      (t.statusWord, t.resultWord, t.txInstalled)) = some (1, 0x10, 2) ∧
    ((after (exec .txInstall (told [] [false] [] (at_ .initTxInstall live1)))).map State.statusWord) =
      some 0x000002F5 := by decide

/-- V-BU-7: the first two cells change; V-BU-9: `copy_len` is capped at 3. -/
theorem test_copy :
    ((after (exec .bufCopy (calling (showCall [0xAA, 0xBB]) live2))).map fun t => (List.range 6).map t.pxAt) =
      some [some 0xAA, some 0xBB, some 0x30, some 0x40, some 0x50, some 0x60] ∧
    ((after (exec .bufCopy (calling (showCall [0xAA, 0xBB, 0xCC, 0xDD, 0xEE]) live1))).map fun t =>
      (List.range 4).map t.pxAt) = some [some 0xAA, some 0xBB, some 0xCC, none] := by decide

/-- V-BU-8: `10101010` and no cell past the prefix. -/
theorem test_fill :
    ((after (exec .bufFill (calling (showCall [0xAA]) { live1 with slot := some ⟨5, 1, [(0, 0xAA)], []⟩ }))).map fun t =>
      (List.range 10).map fun j => (t.plAt j).map Pd.high) =
      some [some 14, some 7, some 14, some 7, some 14, some 7, some 14, some 7, none, none] := by decide

/-- V-BU-10: with no data neither buffer is written. -/
theorem test_copy_fill_nothing :
    (after (exec .bufCopy (calling (showCall []) live1))).map State.slot = some live1.slot ∧
    (after (exec .bufFill (calling (showCall []) live1))).map State.slot = some live1.slot := by decide

/-- V-SH-6: the empty frame, accepted and refused (cause 3). -/
theorem test_submit_empty :
    ((after (exec .txSubmit (told [] [true] [] (at_ .showSubmit (calling (showCall []) live1))))).map fun t =>
      (t.phase, t.txInflight, t.hist)) = some (.showWait, some ⟨5, [], 0, false⟩, [.txSubmit [] true]) ∧
    ((after (exec .txSubmit (told [] [false] [] (at_ .showSubmit (calling (showCall []) live1))))).map
      State.statusWord) = some 0x000003F5 := by decide

/-- V-SH-8, V-SH-9: causes 4 and 5, the frame still in flight after the timeout. -/
theorem test_wait_fails :
    (after (exec .txWait { flying with txSignal := some .err, txInflight := none })).map State.statusWord =
      some 0x000004F5 ∧
    ((after (exec .txWait { flying with waitTimer := 2000000 })).map fun t => (t.statusWord, t.txInflight.isSome)) =
      some (0x000005F5, true) := by decide

/-- V-SH-2, V-SH-14: blocked with `STATUS = 0xB3`, then `OK`. -/
theorem test_wait_goes_on :
    (after (exec .txWait { flying with waitTimer := 1999999 })).map State.statusWord = some 0x000000B3 ∧
    ((after (exec .txWait emptyDone)).map fun t => (t.statusWord, t.resultWord)) = some (1, 0x10) := by decide

/-! ## One step -/

/-- V-DE-1 presented to an idle core. -/
theorem test_step_accepts :
    ((after (step (asked [.present ⟨0x1121, 5, 1, []⟩] base))).map fun t => (t.phase, t.call)) =
      some (.initCheck, initCall 5 1) := by decide

/-- V-DE-16 is refused. -/
theorem test_step_reserved :
    refusal (step (asked [.present ⟨0x00010212, 0, 0, []⟩] base)) = some (.reservedCommand .upperHalfNotZero) := by
  decide

/-- V-SQ-1: held in `SHOW_WAIT`. -/
theorem test_step_held :
    ((after (step (asked [.present ⟨0x1121, 5, 1, []⟩] flying))).map fun t => (t.phase, t.waiting)) =
      some (.showWait, [⟨0x1121, 5, 1, []⟩]) := by decide

/-- V-SQ-3: reset in `FAULT`. -/
theorem test_step_reset :
    ((after (step (asked [.rst] { live1 with phase := .fault, faultCause := some .txWaitTimeout, result := some .ok }))).map
      fun t => (t.statusWord, t.resultWord, t.slot)) = some (0, 0, none) := by decide

/-- TX drives the first descriptor of a frame of `0xFF`: 26 ticks. -/
theorem test_step_drives :
    ((after (step (told [] [] [.go] flying))).map fun t => (t.waitTimer, t.txInflight.map Frame.driven, t.phase)) =
      some (26, some 1, .showWait) := by decide

/-- R207: a pause after the first descriptor cuts the frame; before it the frame is only late. -/
theorem test_step_pauses :
    ((after (step (told [] [] [.pause 2]
        { flying with txInflight := some ⟨5, List.replicate 8 ⟨14, 12⟩, 1, false⟩ }))).map fun t =>
      (t.waitTimer, t.txInflight.map Frame.cut, t.lineLow)) = some (3, some true, false) ∧
    ((after (step (told [] [] [.pause 2] flying))).map fun t => (t.waitTimer, t.txInflight.map Frame.cut, t.lineLow)) =
      some (3, some false, true) := by decide

/-- R246, R286: a descriptor of 26 ticks against a bound of one tick: the timer stops at the bound, the frame unfinished. -/
theorem test_step_overruns :
    ((after (step (told [] [] [.go] tooLong))).map fun t => (t.waitTimer, t.txInflight.map Frame.cut)) =
      some (1, some true) := by decide

/-- A bit of a micro-operation word is dropped nowhere: placed where the step fetches, the first step runs it (R97). -/
theorem test_step_fetches_table_word :
    ((after (step (base.withFetchWord 8 2))).map State.phase) = some .initAllocPx ∧
    ((after (step (base.withFetchWord 32 0x1121))).map State.phase) = some .initCheck ∧
    ((after (step (base.withFetchWord 32 0x000C800E))).map State.waitTimer) = some 26 := by decide

/-! ## The register view -/

/-- V-RG-2, V-RG-4. -/
theorem test_read_pin_leds :
    ∃ s, s = live1 ∧ readReg 5 s = .next (0x00000005, s) ∧ readReg 6 s = .next (0x00000001, s) ∧
      readReg 5 { s with slot := some ⟨-1, 1, [], []⟩ } =
        .next (0xFFFFFFFF, { s with slot := some ⟨-1, 1, [], []⟩ }) :=
  ⟨_, rfl, by simp [readReg, live1], by simp [readReg, live1], by simp [readReg]⟩

/-- V-RG-3: `WAIT_TIMEOUT` reads 2000000. -/
theorem test_read_wait_timeout : readReg 12 base = .next (2000000, base) := by
  have h : waitReading base.par = 2000000 := by decide
  simp [readReg, h]

/-! ## Witnesses: the hypotheses of the statements can be met -/

/-- The invariant does not look at the environment, the held commands or the two argument latches. -/
theorem inv_env {s : State} (h : s.Inv) (e : Env) : { s with env := e }.Inv :=
  ⟨h.1, h.2, h.3, h.4, h.5, h.6, h.7, h.8, h.9, h.10, h.11, h.12, h.13, h.14, h.15, h.16, h.17,
    h.18⟩

/-- The invariant of an idle core with no session. -/
theorem base_inv : base.Inv := by
  constructor
  case params => decide
  all_goals simp [base, State.reset, State.ledger, Phase.betweenSessions, Phase.withSession, Phase.afterInitCheck,
    Phase.txUnsettled, Phase.lineUnsettled, Phase.afterCopy, Phase.afterFill]

/-- A new session is in order. -/
theorem session_ok : Session.Ok exTp ⟨5, 1, [], []⟩ := by constructor <;> decide

/-- The invariant of an idle core with a session. -/
theorem live1_inv : live1.Inv := by
  constructor
  case params => decide
  case session => intro x h; cases h; exact session_ok
  all_goals simp [live1, base, State.reset, State.ledger, Phase.betweenSessions, Phase.withSession, Phase.afterInitCheck,
    Phase.txUnsettled, Phase.lineUnsettled, Phase.afterCopy, Phase.afterFill, pxCells, plCells]

theorem noneLeft_inv : noneLeft.Inv := by
  constructor
  case params => decide
  all_goals simp [noneLeft, live1, base, State.reset, State.ledger, Phase.betweenSessions, Phase.withSession,
    Phase.afterInitCheck, Phase.afterCopy, Phase.afterFill]

/-- The invariant of the end of an empty SHOW. -/
theorem emptyDone_inv : emptyDone.Inv := by
  have hf : emptyDone.frame = [] := by decide
  have hc : emptyDone.copyLen = 0 := by decide
  constructor
  case params => decide
  case session => intro x h; cases h; exact session_ok
  case copied => intro _ x _; rw [hc]; simp [Memory.readN]
  case filled => intro _ j hj; simp [State.txCount, hc] at hj
  case sent => intro _ _; rw [hf]; exact ⟨by decide, rfl, [], _, rfl, rfl⟩
  all_goals simp [emptyDone, live1, base, State.reset, State.ledger, Phase.betweenSessions, Phase.withSession,
    Phase.afterInitCheck, Phase.txUnsettled, Phase.lineUnsettled, pxCells, plCells]

/-- A session whose pulse buffer holds one byte is in order. -/
theorem ones_session_ok : Session.Ok exTp ⟨5, 1, [(0, 0xFF)], onesPl⟩ := by constructor <;> decide

/-- The invariant of a frame in flight, cut or not, on the build with the short bound. -/
theorem flight_inv (c : Bool) : { tooLong with txInflight := some ⟨5, List.replicate 8 ⟨14, 12⟩, 0, c⟩ }.Inv := by
  have hf : { tooLong with txInflight := some ⟨5, List.replicate 8 ⟨14, 12⟩, 0, c⟩ }.frame =
      List.replicate 8 ⟨14, 12⟩ := by
    have h : tooLong.frame = List.replicate 8 ⟨14, 12⟩ := by decide
    exact h
  have hc : { tooLong with txInflight := some ⟨5, List.replicate 8 ⟨14, 12⟩, 0, c⟩ }.copyLen = 1 := by
    have h : tooLong.copyLen = 1 := by decide
    exact h
  constructor
  case params => exact (by decide : tooLong.par.wf)
  case session => intro x h; cases h; exact ones_session_ok
  case copied =>
    intro _ x h
    cases h
    rw [hc]
    exact (by decide : Memory.readN [(0, 0xFF)] 0 1 = tooLong.showData.take 1)
  case filled =>
    intro _ j hj
    rw [hf]
    simp only [State.txCount, hc] at hj
    have h : ∀ j < 8, tooLong.plAt j = (List.replicate 8 (⟨14, 12⟩ : Pd))[j]? := by decide
    exact h j (by omega)
  case flying => intro _ f h; cases h; rw [hf]; exact ⟨rfl, Nat.zero_le _, Nat.zero_le _, rfl, rfl⟩
  all_goals simp [tooLong, flying, live1, base, State.reset, State.ledger, Phase.betweenSessions, Phase.withSession,
    Phase.afterInitCheck, Phase.txUnsettled, Phase.lineUnsettled, pxCells, plCells]

theorem tooLong_inv : tooLong.Inv := flight_inv false
theorem cut_inv : { tooLong with txInflight := some ⟨5, List.replicate 8 ⟨14, 12⟩, 0, true⟩ }.Inv := flight_inv true

/-- No reset is next where the inputs say so. -/
theorem no_reset {s : State} (h : s.env.inputs = []) : ¬ resetNow s := by
  rintro ⟨rest, hr⟩
  rw [h] at hr
  cases hr

theorem witness_DecodeEncodeRoundTrip :
    exTp.wf ∧ flatTp.wf ∧ flatTp.symbol0 = flatTp.symbol1 ∧ (Instr.hostShow ⟨1, 2, 0, 3, 0, [1, 2, 3]⟩).wf = true ∧
    (Instr.hostInitialize ⟨15, 2, 0, 0, 0, []⟩).wf = true ∧ Instr.sym0.wf = true := by decide

theorem witness_DecodedCommandEncodesBack :
    decode exTp (.cmd ⟨0x212, 3, 9, [1, 2, 3, 4]⟩) = .ok (.hostShow ⟨1, 2, 0, 3, 9, [1, 2, 3]⟩) := by decide

theorem witness_ReservedCommandWordsAreRefused :
    (asked [.present ⟨0x10000, 0, 0, []⟩] base).phase = .idle ∧ reservedWord 0x10000 ∧ reservedWord 0x213 ∧
    reservedWord 0x2221 ∧ ¬ reservedWord 0x2211 := by
  refine ⟨rfl, ?_, ?_, ?_, ?_⟩ <;> simp [reservedWord]

theorem witness_EncodedSequenceElements : ([0x00, 0x01] : List Byte)[15 / 8]? = some 0x01 := rfl

theorem witness_EncoderInjectivity :
    encBit exTp false ≠ encBit exTp true ∧ encSeq exTp [0xA5] = encSeq exTp [0xA5] ∧
    ([0xA5] : List Byte)[0]? = some 0xA5 ∧ encBit flatTp false = encBit flatTp true ∧
    ([0xA5] : List Byte).length = ([0x5A] : List Byte).length := by decide

theorem witness_WaveformOfFrame : (encSeq exTp [0xFF])[7]? = some ⟨14, 12⟩ := by decide

theorem witness_CommandsAreAcceptedInIdle : base.phase = .idle := rfl

theorem witness_InitializeArgumentCheck : (at_ .initCheck base).phase = .initCheck := rfl

theorem witness_ShowArgumentCheck : (at_ .showCheck live1).phase = .showCheck := rfl

theorem witness_BufReleaseFreesTheSession : base.slot = none ∧ live1.slot = some ⟨5, 1, [], []⟩ := ⟨rfl, rfl⟩

theorem witness_BufAllocPlMakesTheSessionLive : { base with newPx := some [] }.newPx = some Memory.zeroed := rfl

theorem witness_TxConfigureProgramsThePin : live1.slot = some ⟨5, 1, [], []⟩ := rfl

theorem witness_BufCopyWritesThePrefix : live1.slot = some ⟨5, 1, [], []⟩ ∧ Memory.wf [] = true := ⟨rfl, rfl⟩

theorem witness_BufFillEncodesThePrefix : live1.slot = some ⟨5, 1, [], []⟩ := rfl

/-- The premises of the inner clauses of `TxSubmitSendsThePrefix`, at the last cell of the prefix. -/
theorem witness_TxSubmitSendsThePrefix :
    flying.txCfg = some (.forPin 5) ∧ 7 < 8 * flying.copyLen ∧ flying.plAt 7 = some ⟨14, 12⟩ := by decide

/-- Each clause of `TxWaitOutcomes`, the last two at the bound and one tick before it. -/
theorem witness_TxWaitOutcomes :
    emptyDone.txSignal = some .done ∧ { flying with txSignal := some .err }.txSignal = some .err ∧
    ({ flying with waitTimer := 2000000 }.txSignal = none ∧
      { flying with waitTimer := 2000000 }.par.waitTicks ≤ { flying with waitTimer := 2000000 }.waitTimer) ∧
    ({ flying with waitTimer := 1999999 }.txSignal = none ∧
      { flying with waitTimer := 1999999 }.waitTimer < { flying with waitTimer := 1999999 }.par.waitTicks) := by decide

/-- Both clauses of `SymbolsDriveTheLine`: the last descriptor, and none left. -/
theorem witness_SymbolsDriveTheLine :
    (∃ f, { flying with txInflight := some ⟨5, List.replicate 8 ⟨14, 12⟩, 7, false⟩ }.txInflight = some f ∧
      f.driven < f.seq.length) ∧
    (∀ f, { flying with txInflight := some ⟨5, [], 0, false⟩ }.txInflight = some f → f.seq.length ≤ f.driven) ∧
    ∀ f, base.txInflight = some f → f.seq.length ≤ f.driven := by
  refine ⟨⟨_, rfl, by decide⟩, ?_, ?_⟩
  · intro f h; cases h; decide
  · intro f h; cases h

/-- The five clauses of `StepRunsTheDecodedInstruction`. -/
theorem witness_StepRunsTheDecodedInstruction :
    (hostQuiet (at_ .initRelease live1) ∧ (at_ .initRelease live1).txFrame = none ∧
      decode exTp (.uop (BitVec.ofNat 4 (at_ .initRelease live1).phase.code)) = .ok .bufRelease) ∧
    (hostQuiet emptyDone ∧ emptyDone.txFrame = none ∧
      decode exTp (.uop (BitVec.ofNat 4 emptyDone.phase.code)) = .ok .txWait) ∧
    (hostQuiet (asked [.quiet] (at_ .initCheck base)) ∧ (asked [.quiet] (at_ .initCheck base)).phase = .initCheck) ∧
    (hostQuiet (at_ .showCheck base) ∧ (at_ .showCheck base).phase = .showCheck) ∧
    ((asked [.present ⟨0x1121, 5, 1, []⟩] base).env.inputs = .present ⟨0x1121, 5, 1, []⟩ :: [] ∧ base.phase = .idle ∧
      decode exTp (.cmd ⟨0x1121, 5, 1, []⟩) = .ok (.hostInitialize (initCall 5 1))) ∧
    (hostQuiet (told [] [] [.go] flying) ∧
      (told [] [] [.go] flying).txFrame = some ⟨5, List.replicate 8 ⟨14, 12⟩, 0, false⟩ ∧
      (told [] [] [.go] flying).txMove = .go ∧ 0 + Pd.ticks ((told [] [] [.go] flying).plRead 0) ≤ flying.par.waitLast ∧
      decode exTp (.pd ((told [] [] [.go] flying).plRead 0).pack) = .ok .sym1) := by
  refine ⟨⟨.inl rfl, by decide, by decide⟩, ⟨.inl rfl, by decide, by decide⟩, ⟨.inr ⟨[], rfl⟩, rfl⟩, ⟨.inl rfl, rfl⟩,
    ⟨rfl, rfl, by decide⟩, .inl rfl, by decide, rfl, by decide, by decide⟩

theorem witness_PresentedCommandIsAcceptedOrHeld :
    (asked [.present ⟨0x1121, 5, 1, []⟩] flying).phase ≠ .idle ∧
    (asked [.present ⟨0x1121, 5, 1, []⟩] base).phase = .idle ∧
    decodeCommand ⟨0x1121, 5, 1, []⟩ = .ok (.hostInitialize (initCall 5 1)) ∧
    decodeCommand ⟨0x212, 0, 0, []⟩ = .ok (.hostShow (showCall [])) := by decide

/-- A well-formed word and a reserved one among those held. -/
theorem witness_HeldCommandIsTakenInIdle :
    hostQuiet { base with waiting := [⟨0x1121, 5, 1, []⟩] } ∧ { base with waiting := [⟨0x1121, 5, 1, []⟩] }.phase = .idle ∧
    { base with waiting := [⟨0x1121, 5, 1, []⟩] }.waiting ≠ [] ∧
    decodeCommand ⟨0x1121, 5, 1, []⟩ = .ok (.hostInitialize (initCall 5 1)) ∧
    decodeCommand ⟨0x10212, 5, 1, []⟩ = .error .upperHalfNotZero :=
  ⟨.inl rfl, rfl, by decide, by decide, by decide⟩

/-- The clauses of `TransmitterMoves`, each at the edge of its range. -/
theorem witness_TransmitterMoves :
    (∀ m, (told [] [] [m] flying).env.inputs = [] ∧ (told [] [] [m] flying).phase = .showWait ∧
      (told [] [] [m] flying).txSignal = none ∧ (told [] [] [m] flying).txInflight.isSome = true ∧
      (told [] [] [m] flying).env.txMoves = m :: []) ∧
    (told [] [] [.fail] { flying with waitTimer := 2000000 }).waitTimer ≤ flying.par.waitLast ∧
    (∃ f, { flying with txInflight := some ⟨5, [], 0, false⟩, waitTimer := 2000000 }.txInflight = some f ∧
      f.seq.length ≤ f.driven ∧ f.cut = false ∧ 2000000 ≤ flying.par.waitLast) ∧
    (flying.txInflight.map fun f => (f.cut, f.driven)) = some (false, 0) ∧
    (∃ f, { flying with txInflight := some ⟨5, List.replicate 8 ⟨14, 12⟩, 7, false⟩ }.txInflight = some f ∧
      0 < f.driven ∧ f.driven < f.seq.length) ∧
    (∃ f, { flying with txInflight := some ⟨5, List.replicate 8 ⟨14, 12⟩, 1, true⟩ }.txInflight = some f ∧ f.cut = true) ∧
    (tooLong.plAt 0 = some ⟨14, 12⟩ ∧ tooLong.waitTimer < tooLong.par.waitTicks ∧
      tooLong.par.waitLast < tooLong.waitTimer + Pd.ticks ⟨14, 12⟩) ∧
    { flying with waitTimer := 1999999 }.waitTimer < flying.par.waitTicks ∧
    flying.par.waitTicks ≤ { flying with waitTimer := 2000000 }.waitTimer ∧
    flying.par.waitLast < { flying with waitTimer := 2000001 }.waitTimer :=
  ⟨fun _ => ⟨rfl, rfl, rfl, rfl, rfl⟩, by decide, ⟨_, rfl, by decide, rfl, by decide⟩, by decide,
    ⟨_, rfl, by decide, by decide⟩, ⟨_, rfl, rfl⟩, by decide, by decide, by decide, by decide⟩

theorem witness_ResetFromAnyState : (asked [.rst, .quiet] flying).env.inputs = .rst :: [.quiet] := rfl

theorem witness_PhaseFollowsTheTable :
    ∃ t, step (at_ .initRelease live1) = .next t ∧ ¬ resetNow (at_ .initRelease live1) :=
  ⟨_, rfl, no_reset rfl⟩

/-- Both clauses of `FaultIsForGood`: a silent host, and one that presents a command. -/
theorem witness_FaultIsForGood :
    ((at_ .fault live1).phase = .fault ∧ (at_ .fault live1).env.inputs = []) ∧
    ∃ t, step (asked [.present ⟨0x1121, 5, 1, []⟩] (at_ .fault live1)) = .next t ∧
      ¬ resetNow (asked [.present ⟨0x1121, 5, 1, []⟩] (at_ .fault live1)) := by
  refine ⟨⟨rfl, rfl⟩, _, rfl, ?_⟩
  rintro ⟨rest, h⟩
  cases h

theorem witness_ParametersNeverChange : ∃ t, step (asked [.rst] flying) = .next t := ⟨_, rfl⟩

theorem witness_HistoryOnlyGrows : ∃ t, step emptyDone = .next t ∧ ¬ resetNow emptyDone := ⟨_, rfl, no_reset rfl⟩

/-- The three clauses of `CommandEndsInOneResultOrFault`. -/
theorem witness_CommandEndsInOneResultOrFault :
    (∃ t, step emptyDone = .next t ∧ emptyDone.busy = true ∧ t.phase = .idle) ∧
    (∃ t, step (told [] [] [.go] { flying with waitTimer := 2000001 }) = .next t ∧ flying.busy = true ∧
      t.phase = .fault) ∧
    (∃ t, step (at_ .initRelease live1) = .next t ∧ t.busy = true) ∧
    ∃ t, step (asked [.quiet] (at_ .fault live1)) = .next t ∧ (at_ .fault live1).busy = false := by
  exact ⟨⟨_, rfl, rfl, rfl⟩, ⟨_, rfl, rfl, rfl⟩, ⟨_, rfl, rfl⟩, _, rfl, rfl⟩

theorem witness_SlotIsWrittenOnlyByInitialize :
    ∃ t, step (at_ .showCopy live1) = .next t ∧ ¬ resetNow (at_ .showCopy live1) ∧
      (at_ .showCopy live1).phase ≠ .initRelease ∧ (at_ .showCopy live1).phase ≠ .initAllocPl :=
  ⟨_, rfl, no_reset rfl, by decide, by decide⟩

theorem witness_BuffersAreWrittenOnlyByShow :
    (∃ t, step (at_ .showEncode live1) = .next t ∧ ¬ resetNow (at_ .showEncode live1) ∧
      (at_ .showEncode live1).phase ≠ .showCopy ∧ (at_ .showEncode live1).phase ≠ .initRelease ∧
      (at_ .showEncode live1).phase ≠ .initAllocPl) ∧
    ∃ t, step (at_ .showCopy live1) = .next t ∧ (at_ .showCopy live1).phase ≠ .showEncode :=
  ⟨⟨_, rfl, no_reset rfl, by decide, by decide, by decide⟩, _, rfl, by decide⟩

theorem witness_OnlyInitializeAllocates :
    ∃ t, step emptyDone = .next t ∧ ¬ resetNow emptyDone ∧ emptyDone.phase ≠ .initRelease ∧
      emptyDone.phase ≠ .initAllocPx ∧ emptyDone.phase ≠ .initAllocPl :=
  ⟨_, rfl, no_reset rfl, by decide, by decide, by decide⟩

/-- A live session, its record in force, on its way to another step. -/
theorem witness_TxIsAlwaysAPlainTransmitter :
    PlainTx (at_ .initRelease live1) ∧ (∃ c, live1.txCfg = some c ∧ plainConfig c) ∧
    ∃ t, step (at_ .initRelease live1) = .next t := by
  refine ⟨⟨?_, ?_⟩, ⟨_, rfl, rfl, rfl, rfl, rfl⟩, _, rfl⟩
  · intro c ok h; cases h
  · intro c h; cases h; exact ⟨rfl, rfl, rfl, rfl⟩

theorem witness_StepKeepsTheInvariant : emptyDone.Inv ∧ ∃ t, step emptyDone = .next t := ⟨emptyDone_inv, _, rfl⟩

theorem witness_AtMostTwoBlocksAreLive : live1.Inv ∧ live1.phase = .idle := ⟨live1_inv, rfl⟩

theorem witness_ShowOkMeansTheFrameWasSent :
    emptyDone.Inv ∧ emptyDone.phase = .showWait ∧ ¬ resetNow emptyDone ∧
      ∃ t, step emptyDone = .next t ∧ t.phase = .idle :=
  ⟨emptyDone_inv, rfl, no_reset rfl, _, rfl, rfl⟩

theorem witness_FrameLongerThanTheBoundNeverReturnsOk :
    (told [] [] [.pause 0] tooLong).Inv ∧ (told [] [] [.pause 0] tooLong).phase = .showWait ∧
    waitBound tooLong.par < dur (encSeq tooLong.par.tp (tooLong.showData.take tooLong.copyLen)) ∧
    ¬ resetNow (told [] [] [.pause 0] tooLong) ∧
    (after (step (told [] [] [.pause 0] tooLong))).isSome = true :=
  by
    have hd : dur (encSeq tooLong.par.tp (tooLong.showData.take tooLong.copyLen)) = 208 := by decide
    refine ⟨inv_env tooLong_inv _, rfl, ?_, no_reset rfl, by decide⟩
    rw [hd]
    norm_num [waitBound, tooLong]

/-- A frame in which TX has stopped, its one byte not to be finished. -/
theorem witness_FrameWithAGapIsNeverSent :
    ∃ s f, s.Inv ∧ s.phase = .showWait ∧ s.txInflight = some f ∧ f.cut = true ∧ ¬ resetNow s ∧
      (after (step s)).isSome = true :=
  ⟨told [] [] [.pause 0] { tooLong with txInflight := some ⟨5, List.replicate 8 ⟨14, 12⟩, 0, true⟩ }, _,
    inv_env cut_inv _, rfl, rfl, rfl, no_reset rfl, by decide⟩

/-- One byte past the capacity of one LED differs. -/
theorem witness_BytesBeyondCapacityDecideNothing :
    (calling (showCall [1, 2, 3, 4]) live1).slot = some ⟨5, 1, [], []⟩ ∧
    (calling (showCall [1, 2, 3, 9, 9]) live1).slot = some ⟨5, 1, [], []⟩ ∧
    (calling (showCall [1, 2, 3, 4]) live1).par.tp = (calling (showCall [1, 2, 3, 9, 9]) live1).par.tp ∧
    (calling (showCall [1, 2, 3, 4]) live1).showData.take 3 = (calling (showCall [1, 2, 3, 9, 9]) live1).showData.take 3 ∧
    (calling (showCall [1, 2, 3, 4]) live1).showData ≠ (calling (showCall [1, 2, 3, 9, 9]) live1).showData := by decide

/-- V-IN-1 and V-IN-4: from reset and from a live session; the least LED count. -/
theorem witness_InitializeRunsToOk :
    (∀ s, s = base ∨ s = live1 →
      (asked [.present ⟨0x1121, 5, 1, []⟩] (told [true, true] [true, true] [] s)).Inv ∧ s.phase = .idle) ∧
    1 ≤ (1 : Word).toInt := by
  refine ⟨?_, by decide⟩
  rintro s (rfl | rfl)
  · exact ⟨inv_env base_inv _, rfl⟩
  · exact ⟨inv_env live1_inv _, rfl⟩

/-- V-IN-3 and V-IN-5: the second answer, and the first. -/
theorem witness_FailedAllocationLeavesNoSession :
    (asked [.present ⟨0x1121, 5, 1, []⟩] (told [true, false] [] [] base)).Inv ∧
    (asked [.present ⟨0x1121, 5, 1, []⟩] (told [false] [] [] live1)).Inv ∧ base.phase = .idle ∧ live1.phase = .idle ∧
    1 ≤ (1 : Word).toInt :=
  ⟨inv_env base_inv _, inv_env live1_inv _, rfl, rfl, by decide⟩

/-- V-DE-9 and V-SH-1. -/
theorem witness_RejectedCommandTouchesNothing :
    (decodeCommand ⟨0x1121, 5, 0xFFFFFFFF, []⟩ = .ok (.hostInitialize (initCall 5 0xFFFFFFFF)) ∧
      initializeError (callArgs (initCall 5 0xFFFFFFFF)) = some .wrongArgType) ∧
    (decodeCommand ⟨0x212, 3, 0, [1, 2, 3]⟩ = .ok (.hostShow (showCall [1, 2, 3])) ∧
      showError (callArgs (showCall [1, 2, 3])) base.live = some .notInitialized) ∧
    base.phase = .idle := by decide

/-- V-SH-6 and V-SH-5: no byte, and five bytes for one LED (`dur = 594`). -/
theorem witness_ShowRunsToOk :
    (asked [.present ⟨0x0212, 0, 0, []⟩] (told [] [true] (List.replicate 1 .go) live1)).Inv ∧
    (asked [.present ⟨0x0212, 5, 0, [0xAA, 0xBB, 0xCC, 0xDD, 0xEE]⟩]
      (told [] [true] (List.replicate (8 * 3 + 1) .go) live1)).Inv ∧
    live1.phase = .idle ∧ live1.slot = some ⟨5, 1, [], []⟩ ∧ 0 = min 0 (3 * 1) ∧ 3 = min 5 (3 * 1) ∧
    (dur (encSeq exTp []) : ℚ) ≤ waitBound live1.par ∧
    (dur (encSeq exTp (([0xAA, 0xBB, 0xCC, 0xDD, 0xEE] : List Byte).take 3)) : ℚ) ≤ waitBound live1.par := by
  have h0 : dur (encSeq exTp []) = 0 := by decide
  have h3 : dur (encSeq exTp (([0xAA, 0xBB, 0xCC, 0xDD, 0xEE] : List Byte).take 3)) = 594 := by decide
  refine ⟨inv_env live1_inv _, inv_env live1_inv _, rfl, rfl, rfl, rfl, ?_, ?_⟩
  · rw [h0]
    norm_num [waitBound, live1, base, ex]
  · rw [h3]
    norm_num [waitBound, live1, base, ex]

theorem witness_ResultRegisterFields : base.result = none ∧ { base with result := some .ok }.result = some .ok :=
  ⟨rfl, rfl⟩

/-- The clauses of `RegisterReads`: with and without a session; a bound that is a whole number, and one past the register. -/
theorem witness_RegisterReads :
    base.par.wf ∧ live1.slot = some ⟨5, 1, [], []⟩ ∧ base.slot = none ∧ base.par.tp.treset < 2 ^ 32 ∧
    waitBound base.par = (2000000 : Nat) ∧ 0xFFFFFFFF < waitBound ⟨exTp, 1, 1, 5000, 1⟩ ∧
    Params.wf ⟨exTp, 1, 1, 5000, 1⟩ := by
  refine ⟨by decide, rfl, rfl, by decide, ?_, ?_, by decide⟩
  · norm_num [waitBound, base, ex]
  · norm_num [waitBound]

theorem witness_WaitBoundIsExact : exHalf.wf ∧ ex.wf := by decide

/-- With a session; after a failed allocation has left none; at the end of a wait. -/
theorem witness_LineIsLowBetweenFrames :
    (live1.Inv ∧ live1.phase = .idle ∧ live1.slot.isSome = true) ∧
    (noneLeft.Inv ∧ noneLeft.phase = .idle ∧ noneLeft.slot = none ∧ 1 ≤ noneLeft.txInstalled ∧ noneLeft.faultCause = none) ∧
    (emptyDone.Inv ∧ emptyDone.phase = .showWait ∧ emptyDone.txSignal = some .done ∧ 1 ≤ emptyDone.txInstalled ∧
      emptyDone.faultCause = none) :=
  ⟨⟨live1_inv, rfl, rfl⟩, ⟨noneLeft_inv, rfl, rfl, by decide, rfl⟩, emptyDone_inv, rfl, rfl, by decide, rfl⟩

/-- The clauses of `RegisterWrites`: 0 in both kinds of phase and with a reserved word, 1, 2, 3, 12, 13. -/
theorem witness_RegisterWrites :
    (∀ n, (asked [.write n 0x1121 []] base).env.inputs = .write n 0x1121 [] :: []) ∧
    (asked [.write 0 0x1121 []] flying).phase ≠ .idle ∧
    ((asked [.write 0 0x1121 []] base).phase = .idle ∧
      decodeCommand ⟨0x1121, base.arg0, base.arg1, []⟩ = .ok (.hostInitialize (initCall 0 0))) ∧
    decodeCommand ⟨0, base.arg0, base.arg1, []⟩ = .error .reservedOperation ∧
    (3 ≤ 3 ∧ 3 ≤ 12) ∧ (3 ≤ 12 ∧ 12 ≤ 12) ∧ 13 ≤ 13 :=
  ⟨fun _ => rfl, by decide, ⟨rfl, by decide⟩, by decide, by decide, by decide, by decide⟩

end Sys2Proof.Tests
end

section
/-! The wait bound of R11: the rational quotient `waitBound`, the whole numbers `waitTicks` and `waitLast` the wait is run by, and
the cross-multiplied inequalities both sides reduce to. -/

namespace Sys2Proof.Proofs.WaitBound
open Sys2Proof Sys2Proof.Machine Sys2Proof.Claims

/-- R11's quotient is the one quotient of natural numbers the model divides out. -/
theorem waitBound_eq_boundNum_div_boundDen (p : Params) : waitBound p = (p.boundNum : ℚ) / p.boundDen := by
  unfold waitBound Params.boundNum Params.boundDen
  push_cast
  rw [div_mul_eq_mul_div, div_div_div_eq]

/-- Parameters in the ranges of R10 and R11 give the bound a denominator. -/
theorem boundDen_pos {p : Params} (hp : p.wf) : 0 < p.boundDen := by
  obtain ⟨_, htickNum, _, _, hwaitDen⟩ := hp
  exact Nat.mul_pos hwaitDen htickNum

section
variable {p : Params} (hden : 0 < p.boundDen) (t : Nat)
include hden

/-- `waitTicks` rounds the quotient up. -/
theorem waitTicks_le_iff : p.waitTicks ≤ t ↔ p.boundNum ≤ p.boundDen * t := ceilDiv_le_iff_le_mul hden

/-- `waitLast` rounds the quotient down. -/
theorem le_waitLast_iff : t ≤ p.waitLast ↔ t * p.boundDen ≤ p.boundNum := Nat.le_div_iff_mul_le hden

theorem waitBound_le_natCast_iff : waitBound p ≤ t ↔ p.boundNum ≤ p.boundDen * t := by
  rw [waitBound_eq_boundNum_div_boundDen, div_le_iff₀' (Nat.cast_pos.mpr hden)]
  exact_mod_cast Iff.rfl

theorem natCast_le_waitBound_iff : (t : ℚ) ≤ waitBound p ↔ t * p.boundDen ≤ p.boundNum := by
  rw [waitBound_eq_boundNum_div_boundDen, le_div_iff₀ (Nat.cast_pos.mpr hden)]
  exact_mod_cast Iff.rfl

end

/-- Settles O30: on each side, the whole number and the rational bound reduce to one inequality of natural numbers. -/
theorem waitBoundIsExact : Obligations.WaitBoundIsExact := by
  unfold Obligations.WaitBoundIsExact
  intro p hp t
  have hden := boundDen_pos hp
  exact ⟨(waitTicks_le_iff hden t).trans (waitBound_le_natCast_iff hden t).symm,
    (le_waitLast_iff hden t).trans (natCast_le_waitBound_iff hden t).symm⟩

end Sys2Proof.Proofs.WaitBound
end

section
/-! What each part of `step_cases` leaves alone or appends, and the rules of 10_state.md that follow: the edges of R31, the
parameters of R40, the history of R46, the slot of R21 to R23. -/

namespace Sys2Proof.Machine
open Sys2Proof.Claims

theorem not_rst_of_not_resetNow {s : State} (h : ¬ resetNow s) (rest : List HostInput) :
    s.env.inputs ≠ .rst :: rest := fun hi => h ⟨rest, hi⟩

/-- A step with reset next in line is the reset (R260). -/
theorem eq_rst_of_resetNow {s t : State} (hr : resetNow s) (h : step s = .next t) : t = s.nextInput.rst := by
  obtain ⟨rest, hi⟩ := hr
  rw [step_reset hi, Host.Outcome.next.injEq] at h
  exact h.symm

section
variable {s t : State}

/-! ### The host and the oracles touch nothing of the core -/

theorem State.Beside.phase_eq (h : s.Beside t) : t.phase = s.phase := by obtain ⟨_, _, _, _, rfl⟩ := h; rfl
theorem State.Beside.slot_eq (h : s.Beside t) : t.slot = s.slot := by obtain ⟨_, _, _, _, rfl⟩ := h; rfl
theorem State.Beside.hist_eq (h : s.Beside t) : t.hist = s.hist := by obtain ⟨_, _, _, _, rfl⟩ := h; rfl
theorem State.Beside.par_eq (h : s.Beside t) : t.par = s.par := by obtain ⟨_, _, _, _, rfl⟩ := h; rfl
theorem State.Beside.txSignal_eq (h : s.Beside t) : t.txSignal = s.txSignal := by obtain ⟨_, _, _, _, rfl⟩ := h; rfl
theorem State.Beside.txInflight_eq (h : s.Beside t) : t.txInflight = s.txInflight := by
  obtain ⟨_, _, _, _, rfl⟩ := h; rfl

/-! ### A command is accepted -/

theorem State.Accepts.phase_eq (ha : s.Accepts t) : t.phase = .initCheck ∨ t.phase = .showCheck := by
  obtain ⟨_, _, _, _, _, -, hk, rfl⟩ := ha
  exact hk

theorem State.Accepts.slot_eq (ha : s.Accepts t) : t.slot = s.slot := by
  obtain ⟨_, _, _, _, _, hb, -, rfl⟩ := ha
  exact hb.slot_eq

theorem State.Accepts.par_eq (ha : s.Accepts t) : t.par = s.par := by
  obtain ⟨_, _, _, _, _, hb, -, rfl⟩ := ha
  exact hb.par_eq

theorem State.Accepts.hist_prefix (ha : s.Accepts t) : s.hist <+: t.hist := by
  obtain ⟨_, _, _, _, _, hb, -, rfl⟩ := ha
  exact hb.hist_eq ▸ List.prefix_append _ _

/-! ### TX moves -/

theorem TxDoes.phase_eq {f : Frame} (h : TxDoes f s t) : t.phase = s.phase := by cases h <;> simp
theorem TxDoes.slot_eq {f : Frame} (h : TxDoes f s t) : t.slot = s.slot := by cases h <;> simp
theorem TxDoes.par_eq {f : Frame} (h : TxDoes f s t) : t.par = s.par := by cases h <;> simp
theorem TxDoes.hist_prefix {f : Frame} (h : TxDoes f s t) : s.hist <+: t.hist := by cases h <;> simp

/-! ### The core moves -/

theorem CoreDoes.par_eq (h : CoreDoes s t) : t.par = s.par := by cases h <;> rfl
theorem CoreDoes.hist_prefix (h : CoreDoes s t) : s.hist <+: t.hist := by cases h <;> simp

/-- Every operation but a blocked wait moves the sequencer along an edge of R31. -/
theorem CoreDoes.phase_edge (h : CoreDoes s t) : t.phase = s.phase ∨ s.phase.edge t.phase = true := by
  cases h with
  | waitBlocked => exact .inl rfl
  | _ hp => exact .inr (by rw [hp]; rfl)

/-- BUF.COPY and BUF.FILL write the buffers of the session and neither its pin nor its LED count. -/
theorem CoreDoes.session_eq (h : CoreDoes s t) (hrel : s.phase ≠ .initRelease) (hpl : s.phase ≠ .initAllocPl) :
    (t.slot.map fun x => (x.pin, x.ledCount)) = s.slot.map fun x => (x.pin, x.ledCount) := by
  cases h with
  | releases hp => exact absurd hp hrel
  | plGranted hp => exact absurd hp hpl
  | copies | fills => exact Option.map_map _ _ _
  | _ => rfl

/-! ### The rules -/

/-- Settles O34: the operations of the core follow the table, an acceptance leaves `IDLE` for a check, and neither the host nor
TX moves the sequencer. -/
theorem phaseFollowsTheTable : Obligations.PhaseFollowsTheTable := by
  unfold Obligations.PhaseFollowsTheTable
  intro s t h hr
  rcases step_cases h (not_rst_of_not_resetNow hr) with
    hb | ⟨hi, ha⟩ | ⟨s', hb, hd⟩ | ⟨s', f, hb, -, -, -, hd⟩
  · exact .inl hb.phase_eq
  · rcases ha.phase_eq with hk | hk <;> exact .inr (by rw [hi, hk]; rfl)
  · exact hb.phase_eq ▸ hd.phase_edge
  · exact .inl (hd.phase_eq.trans hb.phase_eq)

/-- No step writes the parameters, a reset included (R40). -/
theorem step_par_eq (h : step s = .next t) : t.par = s.par := by
  by_cases hr : resetNow s
  · rw [eq_rst_of_resetNow hr h]
    rfl
  · rcases step_cases h (not_rst_of_not_resetNow hr) with
      hb | ⟨-, ha⟩ | ⟨s', hb, hd⟩ | ⟨s', f, hb, -, -, -, hd⟩
    · exact hb.par_eq
    · exact ha.par_eq
    · exact hd.par_eq.trans hb.par_eq
    · exact hd.par_eq.trans hb.par_eq

/-- Registers 7 to 12 are read from the parameters alone (R40). -/
theorem readReg_parameter (hpar : t.par = s.par) {n : Nat} (hlo : 7 ≤ n) (hhi : n ≤ 12) :
    ∃ w, readReg n s = .next (w, s) ∧ readReg n t = .next (w, t) := by
  interval_cases n <;> exact ⟨_, rfl, by rw [← hpar]; rfl⟩

/-- Settles O36: the parameters are kept, and the registers 7 to 12 are functions of them. -/
theorem parametersNeverChange : Obligations.ParametersNeverChange := by
  unfold Obligations.ParametersNeverChange
  intro s t h
  have hpar := step_par_eq h
  exact ⟨hpar, fun n hlo hhi => readReg_parameter hpar hlo hhi⟩

/-- Settles O37: every part of a step appends to the history or leaves it alone. -/
theorem historyOnlyGrows : Obligations.HistoryOnlyGrows := by
  unfold Obligations.HistoryOnlyGrows
  intro s t h hr
  rcases step_cases h (not_rst_of_not_resetNow hr) with
    hb | ⟨-, ha⟩ | ⟨s', hb, hd⟩ | ⟨s', f, hb, -, -, -, hd⟩
  · rw [hb.hist_eq]
  · exact ha.hist_prefix
  · exact hb.hist_eq ▸ hd.hist_prefix
  · exact hb.hist_eq ▸ hd.hist_prefix

/-- Settles O39: of the operations of the core, BUF.RELEASE and BUF.ALLOC_PL alone make or end a session. -/
theorem slotIsWrittenOnlyByInitialize : Obligations.SlotIsWrittenOnlyByInitialize := by
  unfold Obligations.SlotIsWrittenOnlyByInitialize
  intro s t h hr hrel hpl
  rcases step_cases h (not_rst_of_not_resetNow hr) with
    hb | ⟨-, ha⟩ | ⟨s', hb, hd⟩ | ⟨s', f, hb, -, -, -, hd⟩
  · rw [hb.slot_eq]
  · rw [ha.slot_eq]
  · rw [← hb.phase_eq] at hrel hpl
    rw [hd.session_eq hrel hpl, hb.slot_eq]
  · rw [hd.slot_eq, hb.slot_eq]

end

end Sys2Proof.Machine
end

section
/-! The invariant read phase by phase. In the settled phases, those with no allocation or TX request half done, no frame in
flight and no fault, most of its clauses are one set of facts that does not look at the phase: `State.Settled`. -/

namespace Sys2Proof.Machine

/-! ## Settled phases -/

/-- The blocks of a session (R45, R150). -/
def sessionBlocks : Option Session → List Block
  | some x => [⟨.px, pxCells x.ledCount⟩, ⟨.pl, plCells x.ledCount⟩]
  | none => []

/-- With no block waiting for its partner the ledger is the session's blocks. -/
theorem ledger_eq_sessionBlocks {s : State} (h : s.newPx = none) : s.ledger = sessionBlocks s.slot := by
  unfold State.ledger
  rw [h]
  cases s.slot <;> rfl

/-- No allocation waits for its partner, TX is not being programmed, no frame is in flight, and nothing has failed. -/
def Phase.settled : Phase → Bool
  | .initAllocPl | .initTxConfigure | .initTxInstall | .showWait | .fault => false
  | _ => true

theorem Phase.settled_ne {p : Phase} (hp : p.settled = true) : p ≠ .initAllocPl ∧ p ≠ .showWait ∧ p ≠ .fault := by
  refine ⟨?_, ?_, ?_⟩ <;> rintro rfl <;> cases hp

theorem Phase.settled_txUnsettled {p : Phase} (hp : p.settled = true) : p.txUnsettled = false := by
  revert hp; cases p <;> decide

theorem Phase.settled_lineUnsettled {p : Phase} (hp : p.settled = true) : p.lineUnsettled = false := by
  revert hp; cases p <;> decide

/-- What the invariant says in every settled phase, clause by clause of `State.Inv`. -/
structure State.Settled (s : State) : Prop where
  params : s.par.wf
  session : ∀ x, s.slot = some x → Session.Ok s.par.tp x
  noBlock : s.newPx = none
  ledgered : s.heapLive = sessionBlocks s.slot
  noCause : s.faultCause = none
  grounded : s.txInflight = none
  timed : s.waitTimer ≤ s.par.waitTicks
  programmed : ∀ x, s.slot = some x → s.txCfg = some (.forPin x.pin)
  idleLine : s.slot.isSome = true → s.lineLow = true
  installedLine : 1 ≤ s.txInstalled → s.lineLow = true

section
variable {s : State} (hs : s.Inv)
include hs

theorem State.Inv.newPx_eq_none (hp : s.phase ≠ .initAllocPl) : s.newPx = none := by rw [hs.building, if_neg hp]

theorem State.Inv.heapLive_eq (hp : s.phase ≠ .initAllocPl) : s.heapLive = sessionBlocks s.slot := by
  rw [hs.ledgered, ledger_eq_sessionBlocks (hs.newPx_eq_none hp)]

theorem State.Inv.faultCause_eq_none (hp : s.phase ≠ .fault) : s.faultCause = none := by
  simpa [hp] using hs.faultMark

theorem State.Inv.txInflight_eq_none (hw : s.phase ≠ .showWait) (hf : s.phase ≠ .fault) : s.txInflight = none := by
  by_contra h
  rcases hs.inflight (Option.isSome_iff_ne_none.mpr h) with h | h
  · exact hw h
  · exact hf h.1

theorem State.Inv.lineLow_of_installed (hw : s.phase ≠ .showWait) (hf : s.phase ≠ .fault) (hn : 1 ≤ s.txInstalled) :
    s.lineLow = true := by
  have hc := hs.faultCause_eq_none hf
  exact hs.installedLine hn hw (by simp [hc]) (by simp [hc])

theorem State.Inv.settled (hp : s.phase.settled = true) : s.Settled := by
  obtain ⟨hpl, hw, hf⟩ := Phase.settled_ne hp
  exact {
    params := hs.params
    session := hs.session
    noBlock := hs.newPx_eq_none hpl
    ledgered := hs.heapLive_eq hpl
    noCause := hs.faultCause_eq_none hf
    grounded := hs.txInflight_eq_none hw hf
    timed := hs.timed
    programmed := hs.programmed (Phase.settled_txUnsettled hp)
    idleLine := hs.idleLine (Phase.settled_lineUnsettled hp)
    installedLine := hs.lineLow_of_installed hw hf }

end

/-- Back to the invariant: beside the settled facts, a settled phase claims what the phase itself says of the session, of the
operands and of the buffers. -/
theorem State.Settled.inv {s : State} (h : s.Settled) (hp : s.phase.settled = true)
    (noSession : s.phase.betweenSessions = true → s.slot = none)
    (hasSession : s.phase.withSession = true → s.slot.isSome = true)
    (counted : s.phase.afterInitCheck = true → 1 ≤ s.callLeds)
    (copied : s.phase.afterCopy = true →
      ∀ x, s.slot = some x → Memory.readN x.px 0 s.copyLen = s.showData.take s.copyLen)
    (filled : s.phase.afterFill = true → ∀ j, j < s.txCount → s.plAt j = s.frame[j]?) : s.Inv := by
  obtain ⟨hpl, hw, hf⟩ := Phase.settled_ne hp
  exact {
    params := h.params
    session := h.session
    noSession, hasSession, counted, copied, filled
    building := by rw [h.noBlock, if_neg hpl]
    ledgered := by rw [h.ledgered, ledger_eq_sessionBlocks h.noBlock]
    faultMark := by simp [h.noCause, hf]
    inflight := by simp [h.grounded]
    waiting := fun h' => absurd h' hw
    flying := fun h' => absurd h' hw
    timed := h.timed
    sent := fun h' => absurd h' hw
    programmed := fun _ => h.programmed
    idleLine := fun _ => h.idleLine
    installedLine := fun hn _ _ _ => h.installedLine hn }

/-- Outside a command's body the phase claims nothing more. -/
theorem State.Settled.inv_outside {s : State} (h : s.Settled)
    (hp : s.phase = .idle ∨ s.phase = .initCheck ∨ s.phase = .showCheck) : s.Inv := by
  rcases hp with hp | hp | hp <;>
    exact h.inv (by rw [hp]; rfl) (by rw [hp]; nofun) (by rw [hp]; nofun) (by rw [hp]; nofun) (by rw [hp]; nofun)
      (by rw [hp]; nofun)

/-- Reset settles everything, whatever the parameters in range and the world outside (R261). -/
theorem State.settled_reset {p : Params} (hp : p.wf) (e : Env) : State.Settled { State.reset with par := p, env := e } :=
  { params := hp
    session := nofun
    noBlock := rfl
    ledgered := rfl
    noCause := rfl
    grounded := rfl
    timed := Nat.zero_le _
    programmed := nofun
    idleLine := nofun
    installedLine := nofun }

/-! ## Sessions -/

theorem Session.Ok.writePx {tp : TimingProfile} {x : Session} (h : Session.Ok tp x) {bs : List Byte}
    (hb : bs.length ≤ pxCells x.ledCount) : Session.Ok tp { x with px := Memory.writeN x.px 0 bs } :=
  { h with
    pxForm := Memory.writeN_wf h.pxForm 0 bs
    pxInside := Memory.writeN_inside h.pxInside (by omega) }

theorem Session.Ok.writePl {tp : TimingProfile} {x : Session} (h : Session.Ok tp x) {ps : List Pd}
    (hlen : ps.length ≤ plCells x.ledCount) (hsym : ∀ d ∈ ps, isSymbol tp d) :
    Session.Ok tp { x with pl := Pulses.writeN x.pl 0 ps } :=
  { h with
    plForm := Pulses.writeN_rising h.plForm 0 ps
    plInside := Pulses.writeN_inside h.plInside (by omega)
    plSymbols := fun c hc => (Pulses.mem_writeN hc).elim (hsym c.2) (h.plSymbols c) }

/-- A session just made is in order (R143, R144, R162). -/
theorem Session.ok_new (tp : TimingProfile) (pin : Int) {n : Nat} (hn : 1 ≤ n) :
    Session.Ok tp ⟨pin, n, Memory.zeroed, Pulses.fresh⟩ := ⟨hn, rfl, rfl, rfl, rfl, nofun⟩

section
variable {s : State} {x : Session} (hx : s.slot = some x)
include hx

theorem ledCount_of_slot : s.ledCount = x.ledCount := by simp [State.ledCount, hx]

theorem copyLen_le_pxCells : s.copyLen ≤ pxCells x.ledCount := ledCount_of_slot hx ▸ s.copyLen_le.2

theorem txCount_le_plCells : s.txCount ≤ plCells x.ledCount := by
  have h := copyLen_le_pxCells hx
  simp only [State.txCount, pxCells, plCells] at h ⊢
  omega

/-! ### Writing the buffers changes no length -/

section
variable {y : Session} (hy : y.ledCount = x.ledCount) (p : Phase)
include hy

theorem copyLen_setSession : ({ s with phase := p, slot := some y } : State).copyLen = s.copyLen := by
  simp only [State.copyLen, State.showData, State.ledCount, hx, hy]

theorem txCount_setSession : ({ s with phase := p, slot := some y } : State).txCount = s.txCount := by
  simp only [State.txCount, copyLen_setSession hx hy]

theorem frame_setSession : ({ s with phase := p, slot := some y } : State).frame = s.frame := by
  simp only [State.frame, State.showData, copyLen_setSession hx hy]

end

/-- The cells of the frame are cells of the pulse buffer. -/
theorem plAt_of_lt_txCount {j : Nat} (hj : j < s.txCount) : s.plAt j = cellAt x.pl j := by
  have h := txCount_le_plCells hx
  simp [State.plAt, hx, show j < plCells x.ledCount by omega]

/-- Buffers may be written in a settled state. -/
theorem State.Settled.setSession (h : s.Settled) {y : Session} (hok : Session.Ok s.par.tp y) (hpin : y.pin = x.pin)
    (hleds : y.ledCount = x.ledCount) (p : Phase) : State.Settled { s with phase := p, slot := some y } :=
  { h with
    session := by rintro _ ⟨⟩; exact hok
    ledgered := by rw [h.ledgered, hx, sessionBlocks, sessionBlocks, hleds]
    programmed := by rintro _ ⟨⟩; rw [h.programmed x hx, hpin]
    idleLine := fun _ => h.idleLine (by rw [hx]; rfl) }

end

end Sys2Proof.Machine
end

section
/-! Every step keeps the invariant: one lemma for each operation of the core and each move of TX that does more than end a
command, then the cases of `CoreDoes` and `TxDoes` put together. -/

namespace Sys2Proof.Machine
open Sys2Proof.Claims

section
variable {s : State} (hs : s.Inv)
include hs

/-- The invariant does not look at what the host and the oracles own. -/
theorem State.Inv.beside {s' : State} (hb : s.Beside s') : s'.Inv := by
  obtain ⟨e, w, a, b, rfl⟩ := hb
  exact { hs with }

theorem State.Inv.accepted {t : State} (hi : s.phase = .idle) (ha : s.Accepts t) : t.Inv := by
  obtain ⟨s', p, c, e, k, hb, hk, rfl⟩ := ha
  have hq : s.Settled := hs.settled (by rw [hi]; rfl)
  obtain ⟨e', w, a, b, rfl⟩ := hb
  exact State.Settled.inv_outside { hq with } (.inr hk)

/-! ## How a command ends early or fails -/

/-- A result from a settled phase (R221). -/
theorem State.Inv.responds {r : Option ResultCode} {h : List Event} {e : Env} (hp : s.phase.settled = true) :
    ({ s with phase := .idle, result := r, hist := h, env := e } : State).Inv :=
  State.Settled.inv_outside { hs.settled hp with } (.inl rfl)

/-- A fatal fault (R231): a frame may be left in flight by a timeout alone, and a line not low by a frame alone. -/
theorem State.Inv.fault {cause : FatalCause} {h : List Event} {e : Env} {low : Bool} (hp : s.phase ≠ .initAllocPl)
    (hfly : s.txInflight.isSome = true → cause = .txWaitTimeout)
    (hline : 1 ≤ s.txInstalled → cause ≠ .txWait → cause ≠ .txWaitTimeout → low = true) :
    ({ s with phase := .fault, faultCause := some cause, hist := h, env := e, lineLow := low } : State).Inv :=
  { hs with
    noSession := nofun
    hasSession := nofun
    counted := nofun
    building := (hs.newPx_eq_none hp :)
    faultMark := rfl
    inflight := fun hf => .inr ⟨rfl, congrArg some (hfly hf)⟩
    waiting := nofun
    copied := nofun
    filled := nofun
    flying := nofun
    sent := nofun
    programmed := nofun
    idleLine := nofun
    installedLine := fun hn _ hw ht => hline hn (fun h => hw (congrArg some h)) (fun h => ht (congrArg some h)) }

/-! ## INITIALIZE -/

/-- The check has found `led_count` positive (R162). -/
theorem State.Inv.initPassed (hp : s.phase = .initCheck) (h : initializeError (callArgs s.call) = none) :
    ({ s with phase := .initRelease } : State).Inv := by
  have hq := hs.settled (by rw [hp]; rfl)
  have hn : 1 ≤ s.callLeds := by
    rw [initializeError_call] at h
    split_ifs at h with _ _ hpos
    unfold State.callLeds
    omega
  exact State.Settled.inv { hq with } rfl nofun nofun (fun _ => hn) nofun nofun

theorem State.Inv.releasedNone (hp : s.phase = .initRelease) (h : s.slot = none) :
    ({ s with phase := .initAllocPx } : State).Inv := by
  have hq := hs.settled (by rw [hp]; rfl)
  exact State.Settled.inv { hq with } rfl (fun _ => h) nofun (fun _ => hs.counted (by rw [hp]; rfl)) nofun nofun

/-- BUF.RELEASE frees exactly the blocks that are live (R146, R163). -/
theorem State.Inv.released (hp : s.phase = .initRelease) {x : Session} (h : s.slot = some x) {hist : List Event} :
    ({ s with
        phase := .initAllocPx, slot := none, hist := hist
        heapLive := (s.heapLive.erase ⟨.px, pxCells x.ledCount⟩).erase ⟨.pl, plCells x.ledCount⟩ } : State).Inv := by
  have hq := hs.settled (by rw [hp]; rfl)
  have hblocks : s.heapLive = sessionBlocks (some x) := h ▸ hq.ledgered
  exact State.Settled.inv
    { hq with
      session := nofun
      ledgered := by simp [hblocks, sessionBlocks]
      programmed := nofun
      idleLine := nofun } rfl (fun _ => rfl) nofun (fun _ => hs.counted (by rw [hp]; rfl)) nofun nofun

theorem State.Inv.pxGranted (hp : s.phase = .initAllocPx) {e : Env} {hist : List Event} :
    ({ s with
        phase := .initAllocPl, newPx := some Memory.zeroed, env := e, hist := hist
        heapLive := s.heapLive ++ [⟨.px, pxCells s.callLeds⟩] } : State).Inv := by
  have hq := hs.settled (by rw [hp]; rfl)
  have hslot : s.slot = none := hs.noSession (by rw [hp]; rfl)
  exact { hq with
    noSession := fun _ => hslot
    hasSession := nofun
    counted := fun _ => hs.counted (by rw [hp]; rfl)
    building := rfl
    ledgered := by simp [State.ledger, hq.ledgered, hslot, sessionBlocks, State.callLeds]
    faultMark := by simp [hq.noCause]
    inflight := by simp [hq.grounded]
    waiting := nofun
    copied := nofun
    filled := nofun
    flying := nofun
    sent := nofun
    programmed := fun _ => hq.programmed
    idleLine := fun _ => hq.idleLine
    installedLine := fun hn _ _ _ => hq.installedLine hn }

/-- The second grant makes the session live, in order and with both its blocks (R144, R166). -/
theorem State.Inv.plGranted (hp : s.phase = .initAllocPl) {e : Env} {hist : List Event} :
    ({ s with
        phase := .initTxConfigure, newPx := none, env := e, hist := hist
        slot := some { pin := s.callPin, ledCount := s.callLeds, px := s.newPx.getD Memory.zeroed, pl := Pulses.fresh }
        heapLive := s.heapLive ++ [⟨.pl, plCells s.callLeds⟩] } : State).Inv := by
  have hw : s.phase ≠ .showWait := by simp [hp]
  have hf : s.phase ≠ .fault := by simp [hp]
  have hslot : s.slot = none := hs.noSession (by rw [hp]; rfl)
  have hpx : s.newPx = some Memory.zeroed := by rw [hs.building, if_pos hp]
  exact {
    params := hs.params
    session := by
      rintro x ⟨⟩
      rw [hpx]
      exact Session.ok_new _ _ (hs.counted (by rw [hp]; rfl))
    noSession := nofun
    hasSession := fun _ => rfl
    counted := fun _ => hs.counted (by rw [hp]; rfl)
    building := rfl
    ledgered := by simp [hs.ledgered, State.ledger, hslot, hpx]
    faultMark := by simp [hs.faultCause_eq_none hf]
    inflight := by simp [hs.txInflight_eq_none hw hf]
    waiting := nofun
    copied := nofun
    filled := nofun
    flying := nofun
    timed := hs.timed
    sent := nofun
    programmed := nofun
    idleLine := nofun
    installedLine := fun hn _ _ _ => hs.lineLow_of_installed hw hf hn }

/-- The second refusal frees the pixel block, and no block is live (R145). -/
theorem State.Inv.plRefused (hp : s.phase = .initAllocPl) {e : Env} {hist : List Event} {r : Option ResultCode} :
    ({ s with
        phase := .idle, result := r, newPx := none, env := e, hist := hist
        heapLive := s.heapLive.erase ⟨.px, pxCells s.callLeds⟩ } : State).Inv := by
  have hw : s.phase ≠ .showWait := by simp [hp]
  have hf : s.phase ≠ .fault := by simp [hp]
  have hslot : s.slot = none := hs.noSession (by rw [hp]; rfl)
  have hpx : s.newPx = some Memory.zeroed := by rw [hs.building, if_pos hp]
  exact State.Settled.inv_outside
    { params := hs.params
      session := hs.session
      noBlock := rfl
      ledgered := by simp [hs.ledgered, State.ledger, hslot, hpx, sessionBlocks]
      noCause := hs.faultCause_eq_none hf
      grounded := hs.txInflight_eq_none hw hf
      timed := hs.timed
      programmed := by simp [hslot]
      idleLine := by simp [hslot]
      installedLine := hs.lineLow_of_installed hw hf } (.inl rfl)

theorem State.Inv.configured (hp : s.phase = .initTxConfigure) {e : Env} {hist : List Event} :
    ({ s with
        phase := .initTxInstall, txCfg := some (.forPin s.pin), lineLow := decide (1 ≤ s.txInstalled), env := e
        hist := hist } : State).Inv := by
  have hw : s.phase ≠ .showWait := by simp [hp]
  have hf : s.phase ≠ .fault := by simp [hp]
  have hpl : s.phase ≠ .initAllocPl := by simp [hp]
  exact { hs with
    noSession := nofun
    hasSession := fun _ => hs.hasSession (by rw [hp]; rfl)
    counted := fun _ => hs.counted (by rw [hp]; rfl)
    building := (hs.newPx_eq_none hpl :)
    faultMark := by simp [hs.faultCause_eq_none hf]
    inflight := by simp [hs.txInflight_eq_none hw hf]
    waiting := nofun
    copied := nofun
    filled := nofun
    flying := nofun
    sent := nofun
    programmed := by
      intro _ x (hx : s.slot = some x)
      simp [State.pin, hx]
    idleLine := nofun
    installedLine := fun hn _ _ _ => decide_eq_true hn }

theorem State.Inv.installed (hp : s.phase = .initTxInstall) {e : Env} {hist : List Event} {r : Option ResultCode} :
    ({ s with
        phase := .idle, result := r, txInstalled := s.txInstalled + 1, lineLow := true, env := e
        hist := hist } : State).Inv := by
  have hw : s.phase ≠ .showWait := by simp [hp]
  have hf : s.phase ≠ .fault := by simp [hp]
  have hpl : s.phase ≠ .initAllocPl := by simp [hp]
  exact State.Settled.inv_outside
    { params := hs.params
      session := hs.session
      noBlock := hs.newPx_eq_none hpl
      ledgered := hs.heapLive_eq hpl
      noCause := hs.faultCause_eq_none hf
      grounded := hs.txInflight_eq_none hw hf
      timed := hs.timed
      programmed := hs.programmed (by rw [hp]; rfl)
      idleLine := fun _ => rfl
      installedLine := fun _ => rfl } (.inl rfl)

/-! ## SHOW -/

/-- The check has found a session (R182). -/
theorem State.Inv.showPassed (hp : s.phase = .showCheck) (h : showError (callArgs s.call) s.live = none) :
    ({ s with phase := .showCopy } : State).Inv := by
  have hq := hs.settled (by rw [hp]; rfl)
  have hlive : s.slot.isSome = true := by
    rw [showError_call] at h
    split_ifs at h with _ _ hl
    exact (Bool.not_eq_false _).mp hl
  exact State.Settled.inv { hq with } rfl nofun (fun _ => hlive) nofun nofun nofun

/-- After BUF.COPY the bytes copied read back from `PX` (R184). -/
theorem State.Inv.copies (hp : s.phase = .showCopy) {x : Session} (hx : s.slot = some x) :
    ({ s with
        phase := .showEncode
        slot := some { x with px := Memory.writeN x.px 0 (s.showData.take s.copyLen) } } : State).Inv := by
  have hlen := s.showData_take_length
  have hok := hs.session x hx
  have hok' := hok.writePx (hlen.trans_le (copyLen_le_pxCells hx))
  refine ((hs.settled (by rw [hp]; rfl)).setSession hx hok' rfl rfl _).inv rfl nofun (fun _ => rfl) nofun ?_ nofun
  rintro - y ⟨⟩
  rw [copyLen_setSession hx (by rfl)]
  have hread := Memory.readN_writeN hok.pxForm 0 (s.showData.take s.copyLen)
  rwa [hlen] at hread

/-- After BUF.FILL the pulse buffer holds the frame (R185). -/
theorem State.Inv.fills (hp : s.phase = .showEncode) {x : Session} (hx : s.slot = some x) :
    ({ s with
        phase := .showSubmit
        slot := some { x with pl := Pulses.writeN x.pl 0 (encSeq s.par.tp (Memory.readN x.px 0 s.copyLen)) } } :
      State).Inv := by
  have hcopied := hs.copied (by rw [hp]; rfl) x hx
  have hlen := frame_length s
  have hok := (hs.session x hx).writePl (hlen.trans_le (txCount_le_plCells hx)) fun d hd => mem_encSeq hd
  rw [hcopied, ← State.frame]
  refine ((hs.settled (by rw [hp]; rfl)).setSession hx hok rfl rfl _).inv rfl nofun (fun _ => rfl) nofun ?_ ?_
  · rintro - y ⟨⟩
    rw [copyLen_setSession hx (by rfl)]
    exact hcopied
  · intro _ j hj
    rw [plAt_of_lt_txCount rfl hj, frame_setSession hx (by rfl)]
    rw [txCount_setSession hx (by rfl)] at hj
    exact Pulses.cellAt_writeN_inside x.pl (Nat.zero_le j) (by omega)

/-- What TX.SUBMIT hands over is the frame, on the session's line (R186, R203). -/
theorem State.Inv.submitted (hp : s.phase = .showSubmit) {e : Env} :
    ({ s with
        phase := .showWait, txInflight := some { pin := s.txPin, seq := s.submission, driven := 0, cut := false }
        txSignal := none, waitTimer := 0, env := e
        hist := s.hist ++ [.txSubmit s.submission true] } : State).Inv := by
  have hq := hs.settled (by rw [hp]; rfl)
  have hsome := hs.hasSession (by rw [hp]; rfl)
  obtain ⟨x, hx⟩ := Option.isSome_iff_exists.mp hsome
  have hfilled := hs.filled (by rw [hp]; rfl)
  have hpin : s.txPin = x.pin := by simp [State.txPin, hq.programmed x hx, TxCfg.forPin]
  rw [submission_eq hfilled, hpin]
  exact { hs with
    noSession := nofun
    hasSession := fun _ => hsome
    counted := nofun
    building := hq.noBlock
    faultMark := by simp [hq.noCause]
    inflight := fun _ => .inl rfl
    waiting := fun _ => rfl
    copied := fun _ => hs.copied (by rw [hp]; rfl)
    filled := fun _ => hfilled
    flying := by
      rintro - f ⟨⟩
      exact ⟨rfl, Nat.zero_le _, Nat.zero_le _, congrArg (Option.map Session.pin) hx, List.getLast?_concat⟩
    timed := Nat.zero_le _
    sent := nofun
    programmed := fun _ => hq.programmed
    idleLine := nofun
    installedLine := fun _ h => absurd rfl h }

/-- `done` means that nothing is in flight and the line is low (R205, R208). -/
theorem State.Inv.waitDone (hp : s.phase = .showWait) (h : s.txSignal = some .done) {hist : List Event}
    {r : Option ResultCode} : ({ s with phase := .idle, result := r, hist := hist } : State).Inv := by
  have hf : s.phase ≠ .fault := by simp [hp]
  have hpl : s.phase ≠ .initAllocPl := by simp [hp]
  obtain ⟨_, hlow, _⟩ := hs.sent hp h
  exact State.Settled.inv_outside
    { params := hs.params
      session := hs.session
      noBlock := hs.newPx_eq_none hpl
      ledgered := hs.heapLive_eq hpl
      noCause := hs.faultCause_eq_none hf
      grounded := by simpa [h] using hs.waiting hp
      timed := hs.timed
      programmed := hs.programmed (by rw [hp]; rfl)
      idleLine := fun _ => hlow
      installedLine := fun _ => hlow } (.inl rfl)

/-! ## TX and its frame -/

/-- The frame in flight gets on, or stops, in the time its descriptors take. -/
theorem State.Inv.flies (hp : s.phase = .showWait) (hsig : s.txSignal = none) {f : Frame} (hf : s.txInflight = some f)
    {n : Nat} (hn : n ≤ f.seq.length) {timer : Nat} (htime : dur (f.seq.take n) ≤ timer)
    (htimed : timer ≤ s.par.waitTicks) {cut low : Bool} :
    ({ s with txInflight := some { f with driven := n, cut := cut }, waitTimer := timer, lineLow := low } : State).Inv := by
  obtain ⟨hframe, _, _, hline, hlast⟩ := hs.flying hp f hf
  exact { hs with
    inflight := fun _ => .inl hp
    waiting := fun _ => by simp [hsig]
    flying := by
      rintro - _ ⟨⟩
      exact ⟨hframe, hn, htime, hline, hlast⟩
    timed := htimed
    sent := fun _ h => by simp [hsig] at h
    idleLine := by simp [hp, Phase.lineUnsettled]
    installedLine := fun _ h => absurd hp h }

/-- The descriptor TX reads is the next one of the frame, so driving it takes the frame's own time. -/
theorem State.Inv.drives (hp : s.phase = .showWait) (hsig : s.txSignal = none) {f : Frame} (hf : s.txInflight = some f)
    {d : Pd} (hl : f.driven < f.seq.length) (hd : ∀ x, s.plAt f.driven = some x → x = d)
    (ht : s.waitTimer + Pd.ticks d ≤ s.par.waitLast) : (s.drive d).Inv := by
  obtain ⟨hframe, _, htime, _, _⟩ := hs.flying hp f hf
  have hread : f.seq[f.driven]? = some d := by
    have hat := hs.filled (by rw [hp]; rfl) f.driven (by rw [← frame_length, ← hframe]; exact hl)
    rw [← hframe, List.getElem?_eq_getElem hl] at hat
    rw [List.getElem?_eq_getElem hl, hd _ hat]
  rw [drive_some d hf hl]
  refine hs.flies hp hsig hf hl ?_ (ht.trans (waitLast_le_waitTicks _))
  rw [dur_take_succ hread]
  exact Nat.add_le_add_right htime _

/-- TX signals: `done` must bear out what the invariant says of a frame sent. -/
theorem State.Inv.signals (hp : s.phase = .showWait) {sig : TxSignal} {low : Bool} {hist : List Event}
    (hdone : sig = .done → dur s.frame ≤ s.par.waitLast ∧ low = true ∧
      ∃ h x, s.slot = some x ∧ hist = h ++ [.txSubmit s.frame true, .wire x.pin s.frame]) :
    ({ s with txInflight := none, txSignal := some sig, lineLow := low, hist := hist } : State).Inv :=
  { hs with
    inflight := nofun
    waiting := fun _ => rfl
    flying := nofun
    sent := fun _ h => hdone (Option.some.inj h)
    idleLine := by simp [hp, Phase.lineUnsettled]
    installedLine := fun _ h => absurd hp h }

/-- A frame driven to its end within the bound was sent, its submission and its `Wire` last in the history (R205). -/
theorem State.Inv.completes (hp : s.phase = .showWait) {f : Frame} (hf : s.txInflight = some f)
    (hl : f.seq.length ≤ f.driven) (ht : s.waitTimer ≤ s.par.waitLast) : (s.txComplete f).Inv := by
  obtain ⟨hframe, _, htime, hline, hlast⟩ := hs.flying hp f hf
  obtain ⟨x, hx, hpin⟩ := Option.map_eq_some_iff.mp hline
  obtain ⟨h, hh⟩ := List.getLast?_eq_some_iff.mp hlast
  rw [List.take_of_length_le hl, hframe] at htime
  refine hs.signals hp fun _ => ⟨htime.trans ht, rfl, h, x, hx, ?_⟩
  rw [hh, hframe, hpin, List.append_assoc]
  rfl

/-! ## The step -/

theorem State.Inv.core {t : State} (hd : CoreDoes s t) : t.Inv := by
  cases hd with
  | initFails hp | showFails hp | pxRefused hp => exact hs.responds (by rw [hp]; rfl)
  | initPasses hp h => exact hs.initPassed hp h
  | releasesNone hp h => exact hs.releasedNone hp h
  | releases hp x h => exact hs.released hp h
  | pxGranted hp => exact hs.pxGranted hp
  | plGranted hp => exact hs.plGranted hp
  | plRefused hp => exact hs.plRefused hp
  | configured hp => exact hs.configured hp
  | installed hp => exact hs.installed hp
  | showPasses hp h => exact hs.showPassed hp h
  | copies hp =>
    obtain ⟨x, hx⟩ := Option.isSome_iff_exists.mp (hs.hasSession (by rw [hp]; rfl))
    rw [hx]
    exact hs.copies hp hx
  | fills hp =>
    obtain ⟨x, hx⟩ := Option.isSome_iff_exists.mp (hs.hasSession (by rw [hp]; rfl))
    rw [hx]
    exact hs.fills hp hx
  | submitted hp => exact hs.submitted hp
  | waitDone hp h => exact hs.waitDone hp h
  | configureFails hp | installFails hp | submitFails hp =>
    have hw : s.phase ≠ .showWait := by simp [hp]
    have hf : s.phase ≠ .fault := by simp [hp]
    exact hs.fault (by simp [hp]) (by simp [hs.txInflight_eq_none hw hf])
      fun hn _ _ => hs.lineLow_of_installed hw hf hn
  | waitErr hp h =>
    have hdone : s.txInflight = none := by simpa [h] using hs.waiting hp
    exact hs.fault (by simp [hp]) (by simp [hdone]) fun _ hc => absurd rfl hc
  | waitTimeout hp => exact hs.fault (by simp [hp]) (fun _ => rfl) fun _ _ hc => absurd rfl hc
  | waitBlocked => exact hs

theorem State.Inv.tx {t : State} {f : Frame} (hp : s.phase = .showWait) (hsig : s.txSignal = none) (hf : s.txInflight = some f)
    (hd : TxDoes f s t) : t.Inv := by
  obtain ⟨_, hdriven, htime, _, _⟩ := hs.flying hp f hf
  cases hd with
  | drives d _ hl hr ht => exact hs.drives hp hsig hf hl hr ht
  | overruns => exact hs.flies hp hsig hf hdriven (htime.trans hs.timed) le_rfl
  | completes _ hl ht => exact hs.completes hp hf hl ht
  | fails => exact hs.signals hp nofun
  | pauses k ht =>
    obtain ⟨hle, hbound⟩ := txPause_timer f k ht
    exact hs.flies hp hsig hf hdriven (htime.trans hle) hbound

end

/-- Settles O44: a reset settles everything; every other step is one of `step_cases`, each of which keeps the invariant. -/
theorem stepKeepsTheInvariant : Obligations.StepKeepsTheInvariant := by
  unfold Obligations.StepKeepsTheInvariant
  intro s t hs h
  by_cases hr : resetNow s
  · rw [eq_rst_of_resetNow hr h]
    exact (State.settled_reset hs.params _).inv_outside (.inl rfl)
  · rcases step_cases h (not_rst_of_not_resetNow hr) with
      hb | ⟨hi, ha⟩ | ⟨s', hb, hd⟩ | ⟨s', f, hb, hp, hsig, hf, hd⟩
    · exact hs.beside hb
    · exact hs.accepted hi ha
    · exact (hs.beside hb).core hd
    · exact (hs.beside hb).tx (hb.phase_eq.trans hp) (hb.txSignal_eq.trans hsig) (hb.txInflight_eq.trans hf) hd

/-! ## Reset -/

/-- A duration field of the build is at least one tick (R10). -/
theorem durationField_ne_zero (n : Fin 32767) : BitVec.ofNat 15 (n.val + 1) ≠ 0 := by
  intro h
  have hn := congrArg BitVec.toNat h
  simp only [BitVec.toNat_ofNat, BitVec.ofNat_eq_ofNat] at hn
  omega

theorem config_params_wf : Config.params.wf :=
  ⟨⟨durationField_ne_zero _, durationField_ne_zero _, durationField_ne_zero _, durationField_ne_zero _,
    Nat.le_add_left _ _⟩, Nat.le_add_left _ _, Nat.le_add_left _ _, Nat.le_add_left _ _, Nat.le_add_left _ _⟩

/-- Settles O43: the reset state is settled, and the parameters of the build are in range. -/
theorem resetMeetsTheInvariant : Obligations.ResetMeetsTheInvariant := by
  unfold Obligations.ResetMeetsTheInvariant
  exact (State.settled_reset config_params_wf _).inv_outside (.inl rfl)

end Sys2Proof.Machine
end

section
/-! The register view (10_state.md R33 to R40): the packed registers as numbers, the readings of the wait bound, and the writes
by the host. -/

namespace Sys2Proof.Machine
open Sys2Proof.Claims Sys2Proof.Proofs.WaitBound

/-! ## The codes -/

theorem faultCauseCode_eq (s : State) : s.faultCauseCode = causeNumber s.faultCause := by
  unfold State.faultCauseCode
  rcases s.faultCause with _ | c
  · rfl
  · cases c <;> rfl

theorem phase_code_eq (p : Phase) : p.code = phaseNumber p := by cases p <;> rfl

theorem phaseNumber_lt (p : Phase) : phaseNumber p < 16 := by cases p <;> decide

theorem causeNumber_lt (c : Option FatalCause) : causeNumber c < 8 := by
  rcases c with _ | c
  · decide
  · cases c <;> decide

theorem resultNumber_lt (c : ResultCode) : resultNumber c < 16 := by cases c <;> decide

theorem resultCode_code_eq (c : ResultCode) : c.code = resultNumber c := by cases c <;> rfl

/-! ## `STATUS` and `RESULT` -/

/-- `STATUS` is the sum of its fields, each at its place (R37). -/
theorem statusWord_toNat (s : State) :
    s.statusWord.toNat =
      256 * causeNumber s.faultCause + 16 * phaseNumber s.phase + 4 * s.faulted.toNat + 2 * s.busy.toNat + s.live.toNat := by
  have hc := causeNumber_lt s.faultCause
  have hp := phaseNumber_lt s.phase
  simp only [State.statusWord, append_toNat, faultCauseCode_eq, phase_code_eq, BitVec.toNat_ofNat, BitVec.toNat_ofBool]
  omega

theorem statusWord_flags (s : State) :
    s.statusWord.getLsbD 0 = s.live ∧ s.statusWord.getLsbD 1 = s.busy ∧ s.statusWord.getLsbD 2 = s.faulted ∧
      s.statusWord.getLsbD 3 = false := by
  simp only [State.statusWord, BitVec.getLsbD_append]
  simp

/-- Settles O53: the flags bit by bit, the two numbers and the bits above them from the sum. -/
theorem statusRegisterFields : Obligations.StatusRegisterFields := by
  unfold Obligations.StatusRegisterFields
  intro s
  obtain ⟨hlive, hbusy, hfault, hzero⟩ := statusWord_flags s
  have hnum := statusWord_toNat s
  have hc := causeNumber_lt s.faultCause
  have hp := phaseNumber_lt s.phase
  have h0 := s.live.toNat_le
  have h1 := s.busy.toNat_le
  have h2 := s.faulted.toNat_le
  refine ⟨rfl, hlive, ?_, hfault, hzero, by omega, by omega, by omega⟩
  rw [hbusy, State.busy, Bool.decide_and]

theorem resultWord_some {s : State} {c : ResultCode} (h : s.result = some c) :
    s.resultWord.toNat = 16 + resultNumber c := by
  have hc := resultNumber_lt c
  simp only [State.resultWord, h, append_toNat, resultCode_code_eq, BitVec.toNat_ofNat]
  omega

/-- Settles O54, by the two values of `VALID`. -/
theorem resultRegisterFields : Obligations.ResultRegisterFields := by
  unfold Obligations.ResultRegisterFields
  intro s
  exact ⟨rfl, fun h => by rw [State.resultWord, h], fun c h => resultWord_some h⟩

/-- Settles O33: the items are those of the reset state, and the two registers are computed from them. -/
theorem resetValues : Obligations.ResetValues := by
  unfold Obligations.ResetValues
  exact ⟨rfl, rfl, rfl, by decide, by decide, rfl, rfl, rfl, rfl, rfl, rfl, rfl⟩

/-! ## Reads -/

/-- `TRESET` reads exactly where it fits (R40). -/
theorem tresetReading_toNat {n : Nat} (h : n < 2 ^ 32) : (tresetReading n).toNat = n := by
  rw [tresetReading, if_pos (by omega), BitVec.toNat_ofNat]
  omega

/-- A bound beyond the register reads saturated (R40). -/
theorem waitReading_saturated {p : Params} (hp : p.wf) (h : 0xFFFFFFFF < waitBound p) : waitReading p = 0xFFFFFFFF := by
  have hlt : p.boundDen * 4294967295 < p.boundNum := by
    by_contra hle
    have := (waitBound_le_natCast_iff (boundDen_pos hp) 4294967295).mpr (not_lt.mp hle)
    exact absurd h (not_lt.mpr (by exact_mod_cast this))
  rw [waitReading, if_pos (by omega)]

theorem boundNum_eq_of_waitBound_eq {p : Params} (hp : p.wf) {n : Nat} (h : waitBound p = n) :
    p.boundNum = n * p.boundDen := by
  have hden := boundDen_pos hp
  have hle := (waitBound_le_natCast_iff hden n).mp h.le
  have hge := (natCast_le_waitBound_iff hden n).mp h.ge
  rw [Nat.mul_comm] at hle
  exact hle.antisymm hge

/-- A whole bound reads exactly, up to the register's largest value (R40). -/
theorem waitReading_whole {p : Params} (hp : p.wf) {n : Nat} (h : waitBound p = n) :
    (waitReading p).toNat = min n 0xFFFFFFFF := by
  have hden := boundDen_pos hp
  rw [waitReading, boundNum_eq_of_waitBound_eq hp h, Nat.mul_mod_left, Nat.mul_div_cancel _ hden, if_pos rfl]
  by_cases hn : 4294967295 < n
  · rw [if_pos (Nat.mul_lt_mul_of_pos_right hn hden), min_eq_right hn.le]
    rfl
  · rw [if_neg (not_lt.mpr (Nat.mul_le_mul_right _ (not_lt.mp hn))), min_eq_left (not_lt.mp hn), BitVec.toNat_ofNat]
    omega

/-- Without a session its two registers read any value (R39). -/
theorem readReg_noSession {s : State} (h : s.slot = none) :
    readReg 5 s = .next s.anyWord ∧ readReg 6 s = .next s.anyWord := by simp [readReg, h]

/-- Settles O55, register by register. -/
theorem registerReads : Obligations.RegisterReads := by
  unfold Obligations.RegisterReads
  intro s hp
  refine ⟨rfl, rfl, ?_, ?_, rfl, rfl, rfl, rfl, ⟨_, rfl, tresetReading_toNat⟩,
    ⟨_, rfl, waitReading_saturated hp, fun n => waitReading_whole hp⟩, ?_⟩
  · intro x hx
    simp [readReg, hx]
  · rintro n (hn | ⟨hs, rfl | rfl⟩)
    · interval_cases n <;> exact ⟨_, _, rfl⟩
    · exact ⟨_, _, (readReg_noSession hs).1⟩
    · exact ⟨_, _, (readReg_noSession hs).2⟩
  · intro n hn
    obtain ⟨k, rfl⟩ := Nat.exists_eq_add_of_le' hn
    rfl

/-! ## Writes -/

/-- With a write next in line the host moves, and the step is the write. -/
theorem step_write {s : State} {n : Nat} {w : Word} {data : List Byte} {rest : List HostInput}
    (h : s.env.inputs = .write n w data :: rest) :
    step s = writeReg n w data { s with env := { s.env with inputs := rest } } := by
  simp only [step, State.mover, State.hostActs, hostStep, State.nextInput, h, if_true, List.tail_cons]

/-- Settles O56: `writeReg` number by number, `CMD` by the phase and by what the words decode to. -/
theorem registerWrites : Obligations.RegisterWrites := by
  unfold Obligations.RegisterWrites
  intro s n w data rest h
  rw [step_write h]
  refine ⟨?_, ?_, ?_, ?_, ?_, ?_, ?_⟩
  · rintro rfl hp
    exact if_neg hp
  · rintro rfl hp i hi
    simp [writeReg, presentCommand, takeCommand, decode, hp, hi]
  · rintro rfl hp why hi
    simp [writeReg, presentCommand, takeCommand, decode, hp, hi]
  · rintro rfl
    rfl
  · rintro rfl
    rfl
  · intro hlo hhi
    obtain ⟨k, rfl⟩ := Nat.exists_eq_add_of_le' hlo
    exact if_pos hhi
  · intro hn
    obtain ⟨k, rfl⟩ := Nat.exists_eq_add_of_le' (show 3 ≤ n by omega)
    exact if_neg (by omega)

end Sys2Proof.Machine
end

section
/-! The buffers of 20_memory.md R62, R63: among the operations of the core, BUF.COPY alone writes `PX` and BUF.FILL alone `PL`
of a session that lives on. -/

namespace Sys2Proof.Machine
open Sys2Proof.Claims

section
variable {s t : State}

/-! ### The cells are read off the slot -/

theorem pxAt_of_slot_eq (h : t.slot = s.slot) (i : Nat) : t.pxAt i = s.pxAt i := by simp only [State.pxAt, h]
theorem plAt_of_slot_eq (h : t.slot = s.slot) (j : Nat) : t.plAt j = s.plAt j := by simp only [State.plAt, h]

/-- Replacing the pulse descriptors leaves the pixel buffer alone. -/
theorem pxAt_setPl {g : Session → Pulses} (h : t.slot = s.slot.map fun x => { x with pl := g x }) (i : Nat) :
    t.pxAt i = s.pxAt i := by
  simp only [State.pxAt, h]
  cases s.slot <;> rfl

/-- Replacing the pixel bytes leaves the pulse buffer alone. -/
theorem plAt_setPx {g : Session → Memory} (h : t.slot = s.slot.map fun x => { x with px := g x }) (j : Nat) :
    t.plAt j = s.plAt j := by
  simp only [State.plAt, h]
  cases s.slot <;> rfl

/-! ### The core moves -/

/-- Only BUF.RELEASE, BUF.ALLOC_PL, BUF.COPY and BUF.FILL write the slot. -/
theorem CoreDoes.slot_eq (h : CoreDoes s t) (hrel : s.phase ≠ .initRelease) (hpl : s.phase ≠ .initAllocPl)
    (hcopy : s.phase ≠ .showCopy) (hfill : s.phase ≠ .showEncode) : t.slot = s.slot := by
  cases h with
  | releases hp => exact absurd hp hrel
  | plGranted hp => exact absurd hp hpl
  | copies hp => exact absurd hp hcopy
  | fills hp => exact absurd hp hfill
  | _ => rfl

theorem CoreDoes.pxAt_eq (h : CoreDoes s t) (hrel : s.phase ≠ .initRelease) (hpl : s.phase ≠ .initAllocPl)
    (hcopy : s.phase ≠ .showCopy) (i : Nat) : t.pxAt i = s.pxAt i := by
  by_cases hfill : s.phase = .showEncode
  · cases h with
    | fills => exact pxAt_setPl rfl i
    | _ hp => simp [hp] at hfill
  · exact pxAt_of_slot_eq (h.slot_eq hrel hpl hcopy hfill) i

theorem CoreDoes.plAt_eq (h : CoreDoes s t) (hrel : s.phase ≠ .initRelease) (hpl : s.phase ≠ .initAllocPl)
    (hfill : s.phase ≠ .showEncode) (j : Nat) : t.plAt j = s.plAt j := by
  by_cases hcopy : s.phase = .showCopy
  · cases h with
    | copies => exact plAt_setPx rfl j
    | _ hp => simp [hp] at hcopy
  · exact plAt_of_slot_eq (h.slot_eq hrel hpl hcopy hfill) j

/-! ### The rule -/

/-- The host, an acceptance and TX leave the slot alone; any other step is an operation of the core. -/
theorem step_slot_eq_or_core (h : step s = .next t) (hr : ¬ resetNow s) :
    t.slot = s.slot ∨ ∃ s', s.Beside s' ∧ CoreDoes s' t := by
  rcases step_cases h (not_rst_of_not_resetNow hr) with
    hb | ⟨-, ha⟩ | hcore | ⟨s', f, hb, -, -, -, hd⟩
  · exact .inl hb.slot_eq
  · exact .inl ha.slot_eq
  · exact .inr hcore
  · exact .inl (hd.slot_eq.trans hb.slot_eq)

/-- Settles O40: a step that moves the slot is an operation of the core, and each of the core's operations writes at most its
own buffer. -/
theorem buffersAreWrittenOnlyByShow : Obligations.BuffersAreWrittenOnlyByShow := by
  unfold Obligations.BuffersAreWrittenOnlyByShow
  intro s t h hr hrel hpl
  rcases step_slot_eq_or_core h hr with hslot | ⟨s', hb, hd⟩
  · exact ⟨fun _ => pxAt_of_slot_eq hslot, fun _ => plAt_of_slot_eq hslot⟩
  · rw [← hb.phase_eq] at hrel hpl ⊢
    exact ⟨fun hcopy i => (hd.pxAt_eq hrel hpl hcopy i).trans (pxAt_of_slot_eq hb.slot_eq i),
      fun hfill j => (hd.plAt_eq hrel hpl hfill j).trans (plAt_of_slot_eq hb.slot_eq j)⟩

end

end Sys2Proof.Machine
end

section
/-! The three formats of 30_encoding.md: an instruction decoded from its own encoding, a command encoded back to the words it
was decoded from, the words R105 reserves, and the packed descriptors of R100 and R101. -/

namespace Sys2Proof.Machine
open Sys2Proof.Claims

/-! ### The symbols -/

theorem symbolOf_symbol1 (tp : TimingProfile) : tp.symbolOf tp.symbol1 = some .sym1 := if_pos rfl

/-- Where the profile makes the two symbols one word, that word is SYM1 (log entry 13). -/
theorem symbolOf_symbol0 (tp : TimingProfile) :
    tp.symbolOf tp.symbol0 = some (if tp.symbol0 = tp.symbol1 then .sym1 else .sym0) := by
  simp only [TimingProfile.symbolOf, if_true]
  split_ifs <;> rfl

/-- Packing loses nothing (R100). -/
theorem pack_inj {d e : Pd} : d.pack = e.pack ↔ d = e :=
  ⟨fun h => by rw [← unpack_pack d, h, unpack_pack], congrArg Pd.pack⟩

/-- The four fields side by side are the shifts of R100. -/
theorem pack_eq_shifts (d : Pd) : d.pack = (d.low.setWidth 32 <<< 16) ||| 0x8000#32 ||| d.high.setWidth 32 := by
  simp only [Pd.pack]
  ext i hi
  simp only [BitVec.getElem_or, BitVec.getElem_append, BitVec.getElem_shiftLeft, BitVec.getElem_setWidth]
  interval_cases i <;> simp

/-- Settles O5. -/
theorem packedDescriptorLayout : Obligations.PackedDescriptorLayout :=
  ⟨fun d => ⟨pack_eq_shifts d, pack_toNat d, unpack_pack d⟩, unpack_toNat⟩

/-- Settles O6. -/
theorem symbolWords : Obligations.SymbolWords := by
  unfold Obligations.SymbolWords
  intro tp
  refine ⟨rfl, rfl, pack_eq_shifts _, pack_eq_shifts _, ?_⟩
  calc (encBit tp false).pack = (encBit tp true).pack
      ↔ (⟨tp.t0h, tp.t0l⟩ : Pd) = ⟨tp.t1h, tp.t1l⟩ := pack_inj
    _ ↔ tp.t0h = tp.t1h ∧ tp.t0l = tp.t1l := by simp only [Pd.mk.injEq]

/-! ### Round trips -/

/-- Settles O1, format by format: a command by its header's fields, a symbol by its two durations, a micro-operation by its
code. -/
theorem decodeEncodeRoundTrip : Obligations.DecodeEncodeRoundTrip := by
  unfold Obligations.DecodeEncodeRoundTrip
  intro tp i htp hi
  obtain ⟨h0, l0, h1, l1, -⟩ := htp
  cases i with
  | hostInitialize c => exact decodeCommand_present opcInitialize (.inl rfl) c hi
  | hostShow c => exact decodeCommand_present opcShow (.inr rfl) c hi
  | sym0 =>
    have h := decodePd_pack tp tp.symbol0 h0 l0
    rw [symbolOf_symbol0] at h
    simp only [true_and]
    exact h
  | sym1 =>
    have h := decodePd_pack tp tp.symbol1 h1 l1
    rw [symbolOf_symbol1] at h
    exact h
  | _ => rfl

/-- A call cut to its announced bytes is well formed where it has one byte sequence at most (R95). -/
theorem wf_cutData {c : Call} (h : c.oneData = true) : c.cutData.wf = true := by
  have hfits : c.cutData.dataFits = true := decide_eq_true (List.length_take_le _ _)
  exact Bool.and_eq_true_iff.mpr ⟨h, hfits⟩

/-- The call a header carries, presented again under its `OPC`, is the words it came from, with `DATA` cut (R93, R95). -/
theorem present_cutData {p : Presented} (h : p.cmd.extractLsb' 16 16 = 0#16) :
    p.call.cutData.present (p.cmd.extractLsb' 0 4) = { p with data := p.data.take p.call.dataLen } := by
  have hcmd := header_of p h p.call.cutData rfl rfl rfl
  unfold Call.present
  rw [hcmd]
  rfl

/-- Settles O2. -/
theorem decodedCommandEncodesBack : Obligations.DecodedCommandEncodesBack := by
  unfold Obligations.DecodedCommandEncodesBack
  intro tp p i h
  obtain ⟨hupper, hone, ⟨hopc, rfl⟩ | ⟨hopc, rfl⟩⟩ := decodeCommand_ok h
  · exact ⟨wf_cutData hone, congrArg Raw.cmd (hopc ▸ present_cutData hupper)⟩
  · exact ⟨wf_cutData hone, congrArg Raw.cmd (hopc ▸ present_cutData hupper)⟩

/-! ### Reserved words -/

/-- Two byte sequences in one call, by the digits of its header (R105). -/
theorem oneData_eq_false_iff (c : Call) :
    c.oneData = false ↔ 2 ≤ c.argc.toNat ∧ c.tag0.toNat = 2 ∧ c.tag1.toNat = 2 := by
  simp only [Call.oneData, Call.bytes1, Bool.not_eq_false', Bool.and_eq_true, decide_eq_true_eq, eq_tagBytes]
  tauto

/-- The decoder's three checks are the three causes of R105. -/
theorem reservedWord_iff (p : Presented) :
    reservedWord p.cmd.toNat ↔
      p.cmd.extractLsb' 16 16 ≠ 0 ∨
      (p.cmd.extractLsb' 0 4 ≠ opcInitialize ∧ p.cmd.extractLsb' 0 4 ≠ opcShow) ∨ p.call.oneData = false := by
  have hw := p.cmd.isLt
  have hupper : 65536 ≤ p.cmd.toNat ↔ p.cmd.extractLsb' 16 16 ≠ 0 := by
    rw [Ne, extract_eq]
    change 65536 ≤ p.cmd.toNat ↔ ¬ p.cmd.toNat / 65536 % 65536 = 0
    omega
  have hopc (k : Nibble) : p.cmd.toNat % 16 ≠ k.toNat ↔ p.cmd.extractLsb' 0 4 ≠ k := by
    rw [Ne, Ne, extract_eq, pow_zero, Nat.div_one]
    rfl
  have hdata : (2 ≤ p.cmd.toNat / 16 % 16 ∧ p.cmd.toNat / 256 % 16 = 2 ∧ p.cmd.toNat / 4096 % 16 = 2) ↔
      p.call.oneData = false := by
    rw [oneData_eq_false_iff]
    simp only [Presented.call, extract_toNat]
    rfl
  exact or_congr hupper (or_congr (and_congr (hopc opcInitialize) (hopc opcShow)) hdata)

/-- The decoder refuses exactly the words of R105. -/
theorem decodeCommand_error_iff (p : Presented) : (∃ why, decodeCommand p = .error why) ↔ reservedWord p.cmd.toNat := by
  rw [reservedWord_iff]
  unfold decodeCommand
  split_ifs with hupper hopc hdata hinit
  · exact ⟨fun _ => .inl hupper, fun _ => ⟨_, rfl⟩⟩
  · exact ⟨fun _ => .inr (.inl hopc), fun _ => ⟨_, rfl⟩⟩
  · exact ⟨fun _ => .inr (.inr hdata), fun _ => ⟨_, rfl⟩⟩
  all_goals
    exact ⟨fun ⟨_, h⟩ => (nomatch h), fun h => absurd h (not_or.mpr ⟨hupper, not_or.mpr ⟨hopc, hdata⟩⟩)⟩

/-- With a command next in line the host moves, and the step is the presentation. -/
theorem step_present {s : State} {p : Presented} {rest : List HostInput} (h : s.env.inputs = .present p :: rest) :
    step s = presentCommand p s.nextInput := by
  simp only [step, State.mover, State.hostActs, hostStep, h, if_true]

/-- In `IDLE` the command presented is taken at once (R251). -/
theorem step_present_idle {s : State} {p : Presented} {rest : List HostInput} (h : s.env.inputs = .present p :: rest)
    (hp : s.phase = .idle) : step s = takeCommand p s.nextInput :=
  (step_present h).trans (if_pos hp)

/-- Settles O3. -/
theorem reservedCommandWordsAreRefused : Obligations.ReservedCommandWordsAreRefused := by
  unfold Obligations.ReservedCommandWordsAreRefused
  refine ⟨fun p => (decodeCommand_error_iff p).symm, ?_⟩
  intro s p rest hp hin hres
  obtain ⟨why, hwhy⟩ := (decodeCommand_error_iff p).mpr hres
  refine ⟨why, ?_⟩
  rw [step_present_idle hin hp]
  simp only [takeCommand, decode, hwhy]

/-! ### Words written out -/

/-- Settles O4, word by word. -/
theorem opcodeWordsDecode : Obligations.OpcodeWordsDecode := by
  unfold Obligations.OpcodeWordsDecode
  refine ⟨rfl, rfl, rfl, rfl, rfl, ?_, ?_⟩
  · decide
  · decide

end Sys2Proof.Machine
end

section
/-! The operations run: each answers a next state, a symbol drives one descriptor, and a step runs the instruction decoded from
the port, the sequencer or the pulse buffer. -/

namespace Sys2Proof.Machine
open Sys2Proof.Claims

/-! ### Operations -/

/-- Settles O24: the commands by the phase they meet; every other operation is one `next`. -/
theorem everyOperationAnswersNext : Obligations.EveryOperationAnswersNext := by
  unfold Obligations.EveryOperationAnswersNext
  intro i s
  cases i with
  | hostInitialize c =>
    simp only [exec, execHostInitialize]
    split <;> exact ⟨_, rfl⟩
  | hostShow c =>
    simp only [exec, execHostShow]
    split <;> exact ⟨_, rfl⟩
  | _ => exact ⟨_, rfl⟩

/-- Settles O23: `State.drive` of each symbol, with a descriptor left and with none. -/
theorem symbolsDriveTheLine : Obligations.SymbolsDriveTheLine := by
  unfold Obligations.SymbolsDriveTheLine
  intro s
  refine ⟨fun f hf hl => ?_, fun hdone => ?_⟩
  · exact ⟨congrArg _ (drive_some _ hf hl), congrArg _ (drive_some _ hf hl)⟩
  · exact ⟨congrArg _ (drive_done _ hdone), congrArg _ (drive_done _ hdone)⟩

/-! ### What is fetched -/

/-- A phase whose code decodes as a micro-operation fetches it (R97, R110). -/
theorem coreFetch_of_decode {s : State} {i : Instr}
    (h : decode s.par.tp (.uop (BitVec.ofNat 4 s.phase.code)) = .ok i) : coreFetch s = some i := by
  rw [coreFetch_eq]
  cases hp : s.phase <;> rw [hp] at h <;> cases h <;> rfl

section
variable {s : State} (hq : hostQuiet s)
include hq

theorem hostActs_of_quiet : s.hostActs = false := by
  obtain h | ⟨rest, h⟩ := hq <;> simp only [State.hostActs, h]

/-- With the host quiet and no frame for TX, the core moves (R252). -/
theorem step_of_quiet_core {i : Instr} (hf : s.txFrame = none) (hi : coreFetch s = some i) :
    step s = exec i s.nextInput := by
  simp [step, State.mover, hostActs_of_quiet hq, hf, coreStep, hi]

/-- With the host quiet and a frame in flight, TX moves (R252). -/
theorem step_of_quiet_tx {f : Frame} (hf : s.txFrame = some f) : step s = txStep f s.nextInput := by
  simp [step, State.mover, hostActs_of_quiet hq, hf, txTurn]

end

/-- TX has a frame to work on in `SHOW_WAIT` only (R205). -/
theorem txFrame_eq_none {s : State} (h : s.phase ≠ .showWait) : s.txFrame = none := by
  cases hf : s.txFrame with
  | none => rfl
  | some f => exact absurd (txFrame_some hf).1 h

/-- TX going on with a frame runs the symbol it reads, where that ends within the bound (R211). -/
theorem txStep_symbol {s : State} {f : Frame} {i : Instr} (hm : s.txMove = .go) (hc : f.cut = false)
    (hl : f.driven < f.seq.length) (ht : s.waitTimer + Pd.ticks (s.plRead f.driven) ≤ s.par.waitLast)
    (hi : decode s.par.tp (.pd (s.plRead f.driven).pack) = .ok i) : txStep f s = exec i s.txMoved.drawn := by
  simp [txStep, txGo, hm, hc, hl, ht, hi]

/-- Settles O25, one source of instructions after another. -/
theorem stepRunsTheDecodedInstruction : Obligations.StepRunsTheDecodedInstruction := by
  unfold Obligations.StepRunsTheDecodedInstruction
  refine ⟨?_, ?_, ?_, ?_, ?_⟩
  · intro s i hq hf hi
    exact step_of_quiet_core hq hf (coreFetch_of_decode hi)
  · intro s hq hp
    exact step_of_quiet_core hq (txFrame_eq_none (by simp [hp])) (by simp [coreFetch_eq, hp])
  · intro s hq hp
    exact step_of_quiet_core hq (txFrame_eq_none (by simp [hp])) (by simp [coreFetch_eq, hp])
  · intro s p rest i hin hp hi
    rw [step_present_idle hin hp]
    simp only [takeCommand, State.nextInput_par, hi]
  · intro s f i hq hf hm hc hl ht hi
    exact (step_of_quiet_tx hq hf).trans (txStep_symbol (s := s.nextInput) hm hc hl ht hi)

end Sys2Proof.Machine
end

section
/-! The Bit Encoder (40_bit_encoder.md): the elements of an encoded sequence, what is read back from it, and how long it
lasts. -/

namespace Sys2Proof.Machine
open Sys2Proof.Claims

/-! ### The elements -/

/-- ENC.BIT gives the symbol of a bit (R120, R101). -/
theorem encBit_eq_symbolFor (tp : TimingProfile) (b : Bool) : encBit tp b = symbolFor tp b := rfl

/-- Settles O7: `j` is `8 (j div 8) + j mod 8`. -/
theorem encodedSequenceElements : Obligations.EncodedSequenceElements := by
  unfold Obligations.EncodedSequenceElements
  intro tp bs
  refine ⟨encSeq_length tp bs, fun j x hx => ?_⟩
  have h := encSeq_getElem?_byte tp hx (Nat.mod_lt j (by decide : 0 < 8))
  rwa [Nat.div_add_mod, encBit_eq_symbolFor] at h

/-! ### Two symbols: what is read back (R127) -/

section
variable {tp : TimingProfile} (hne : encBit tp false ≠ encBit tp true)
include hne

theorem encBit_injective : Function.Injective (encBit tp) := by
  intro a b h
  cases a <;> cases b
  · rfl
  · exact absurd h hne
  · exact absurd h.symm hne
  · rfl

theorem encByte_injective : Function.Injective (encByte tp) := by
  intro x y h
  refine BitVec.eq_of_getLsbD_eq fun k hk => encBit_injective hne (Option.some.inj ?_)
  have hbit (z : Byte) : (encByte tp z)[7 - k]? = some (encBit tp (z.getLsbD k)) := by
    rw [encByte_getElem? tp z (7 - k) (by omega), Nat.sub_sub_self (by omega)]
  rw [← hbit x, ← hbit y, h]

/-- An encoded byte has eight descriptors, so two encoded sequences that agree do so byte by byte. -/
theorem encSeq_injective : Function.Injective (encSeq tp) := by
  intro bs
  induction bs with
  | nil =>
    intro bs' h
    cases bs' with
    | nil => rfl
    | cons y bs' => cases h
  | cons x bs ih =>
    intro bs' h
    cases bs' with
    | nil => cases h
    | cons y bs' =>
      obtain ⟨hbyte, hrest⟩ := List.append_inj h rfl
      rw [encByte_injective hne hbyte, ih hrest]

/-- Bit `k` of byte `i` stands in descriptor `8 i + 7 - k`. -/
theorem getLsbD_iff_encSeq_getElem? {bs : List Byte} {i k : Nat} {x : Byte} (hx : bs[i]? = some x) (hk : k < 8) :
    x.getLsbD k = true ↔ (encSeq tp bs)[8 * i + 7 - k]? = some (encBit tp true) := by
  have h := encSeq_getElem?_byte tp hx (show 7 - k < 8 by omega)
  rw [Nat.sub_sub_self (by omega), ← Nat.add_sub_assoc (by omega)] at h
  rw [h, Option.some.injEq, (encBit_injective hne).eq_iff]

end

/-! ### One symbol: nothing is read back (R127) -/

theorem encSeq_eq_replicate {tp : TimingProfile} (heq : tp.symbol0 = tp.symbol1) (bs : List Byte) :
    encSeq tp bs = List.replicate (8 * bs.length) tp.symbol0 :=
  List.eq_replicate_iff.mpr ⟨encSeq_length tp bs, fun _ hd => (mem_encSeq hd).elim id (·.trans heq.symm)⟩

/-- Settles O8, by whether the two symbols differ. -/
theorem encoderInjectivity : Obligations.EncoderInjectivity := by
  unfold Obligations.EncoderInjectivity
  intro tp
  refine ⟨fun hne => ⟨fun _ _ h => encSeq_injective hne h, ?_⟩, fun heq bs bs' hlen => ?_⟩
  · intro bs i k x hx hk
    exact getLsbD_iff_encSeq_getElem? hne hx hk
  · rw [encSeq_eq_replicate heq, encSeq_eq_replicate heq, hlen]

/-! ### The duration (R128) -/

/-- Encoded bits last the ticks of SYM1 for each that is set and the ticks of SYM0 for each of the others. -/
theorem dur_map_encBit (tp : TimingProfile) (bit : Nat → Bool) (ks : List Nat) :
    dur (ks.map fun k => encBit tp (bit k)) =
      ks.countP bit * Pd.ticks tp.symbol1 + (ks.length - ks.countP bit) * Pd.ticks tp.symbol0 := by
  induction ks with
  | nil => simp [dur]
  | cons k ks ih =>
    rw [List.map_cons, dur, ih, List.length_cons]
    cases hk : bit k with
    | true =>
      rw [List.countP_cons_of_pos hk, Nat.add_sub_add_right, encBit, if_pos rfl]
      ring
    | false =>
      rw [List.countP_cons_of_neg (by simp [hk]), Nat.sub_add_comm List.countP_le_length, encBit,
        if_neg Bool.false_ne_true]
      ring

/-- An encoded byte is its eight bits encoded, from bit 7 down to bit 0 (R121). -/
theorem encByte_eq_map (tp : TimingProfile) (x : Byte) :
    encByte tp x = (List.range 8).reverse.map fun k => encBit tp (x.getLsbD k) := rfl

theorem dur_encByte (tp : TimingProfile) (x : Byte) :
    dur (encByte tp x) = onesOf x * Pd.ticks tp.symbol1 + (8 - onesOf x) * Pd.ticks tp.symbol0 := by
  rw [encByte_eq_map, dur_map_encBit, List.countP_reverse, List.length_reverse, List.length_range]
  rfl

theorem onesOf_le (x : Byte) : onesOf x ≤ 8 := List.countP_le_length

@[simp] theorem ones_cons (x : Byte) (bs : List Byte) : ones (x :: bs) = onesOf x + ones bs := rfl

theorem ones_le (bs : List Byte) : ones bs ≤ 8 * bs.length := by
  induction bs with
  | nil => exact Nat.le_refl 0
  | cons x bs ih =>
    have hx := onesOf_le x
    rw [ones_cons, List.length_cons]
    omega

/-- Settles O9: the duration adds up byte by byte, and so do the 1 bits and the 0 bits. -/
theorem encodedDuration : Obligations.EncodedDuration := by
  unfold Obligations.EncodedDuration
  intro tp bs
  change dur (encSeq tp bs) = ones bs * Pd.ticks tp.symbol1 + (8 * bs.length - ones bs) * Pd.ticks tp.symbol0
  induction bs with
  | nil => simp [dur, ones]
  | cons x bs ih =>
    have hzeros : 8 * (bs.length + 1) - (onesOf x + ones bs) = 8 - onesOf x + (8 * bs.length - ones bs) := by
      have hx := onesOf_le x
      have hbs := ones_le bs
      omega
    rw [encSeq_cons, dur_append, dur_encByte, ih, ones_cons, List.length_cons, hzeros]
    ring

end Sys2Proof.Machine
end

section
/-! The operations of the Pulse Buffer Manager (41_buffer_manager.md R143 to R148), each as one equation: what it asks of the
pool and what it writes into the buffers. -/

namespace Sys2Proof.Machine
open Sys2Proof.Claims

section
variable {s : State}

/-! ### The pool -/

/-- A request of the pool moves the ledger, the history and the oracle, and nothing else (R142). -/
theorem alloc_eq (kind : BlockKind) (cells : Nat) (ok : Bool) (s : State) :
    s.alloc kind cells ok =
      { s with
        env := s.allocAnswered.env, heapLive := if ok then s.heapLive ++ [⟨kind, cells⟩] else s.heapLive
        hist := s.hist ++ [.alloc kind cells ok] } := by
  rw [State.alloc, allocAnswered_eq]
  rfl

theorem answers_allocAnswer (s : State) : answers s.env.allocAnswers s.allocAnswer :=
  fun _ _ h => allocAnswer_written h

theorem allocAnswered_inputs (s : State) : s.allocAnswered.env.inputs = s.env.inputs := by
  obtain ⟨e, he, hs⟩ := allocAnswered_env s
  rw [hs, ← he]

/-- An answer written down is used up, and no free draw (R142). -/
theorem allocAnswered_written {a : Bool} {rest : List Bool} (h : s.env.allocAnswers = a :: rest) :
    s.allocAnswered.env = { s.env with allocAnswers := rest } := by
  simp only [State.allocAnswered, h]

theorem release_of_none (h : s.slot = none) : s.release = s := by simp only [State.release, h]

theorem release_of_some {x : Session} (h : s.slot = some x) :
    s.release =
      { s with
        slot := none, heapLive := (s.heapLive.erase ⟨.px, 3 * x.ledCount⟩).erase ⟨.pl, 24 * x.ledCount⟩
        hist := s.hist ++ [.free .px (3 * x.ledCount), .free .pl (24 * x.ledCount)] } := by
  simp only [State.release, h, State.free, State.emit, List.append_assoc]
  rfl

/-! ### The session is released and made anew -/

theorem exec_bufAllocPx (s : State) :
    exec .bufAllocPx s =
      .next
        (if s.allocAnswer then
          { s with
            phase := .initAllocPl, newPx := some Memory.zeroed, env := s.allocAnswered.env
            heapLive := s.heapLive ++ [⟨.px, 3 * leds s⟩]
            hist := s.hist ++ [.alloc .px (3 * leds s) true] }
        else
          responded .outOfMemory
            { s with env := s.allocAnswered.env, hist := s.hist ++ [.alloc .px (3 * leds s) false] }) := by
  simp only [exec, execBufAllocPx, alloc_eq]
  rfl

theorem exec_bufAllocPl {px : Memory} (h : s.newPx = some px) :
    exec .bufAllocPl s =
      .next
        (if s.allocAnswer then
          { s with
            phase := .initTxConfigure, newPx := none, env := s.allocAnswered.env
            slot := some { pin := s.call.arg0.toInt, ledCount := leds s, px := px, pl := Pulses.fresh }
            heapLive := s.heapLive ++ [⟨.pl, 24 * leds s⟩]
            hist := s.hist ++ [.alloc .pl (24 * leds s) true] }
        else
          responded .outOfMemory
            { s with
              newPx := none, env := s.allocAnswered.env
              heapLive := s.heapLive.erase ⟨.px, 3 * leds s⟩
              hist := s.hist ++ [.alloc .pl (24 * leds s) false, .free .px (3 * leds s)] }) := by
  simp only [exec, execBufAllocPl, alloc_eq, h, State.free, State.emit, List.append_assoc]
  rfl

/-- Settles O14, without a session and with one. -/
theorem bufReleaseFreesTheSession : Obligations.BufReleaseFreesTheSession := by
  unfold Obligations.BufReleaseFreesTheSession
  intro s
  refine ⟨fun hx => ?_, fun x hx => ?_⟩
  · rw [exec, execBufRelease, release_of_none hx]
    rfl
  · rw [exec, execBufRelease, release_of_some hx]
    rfl

/-- Settles O15: an empty list of cells reads as 0 everywhere. -/
theorem bufAllocPxZeroFills : Obligations.BufAllocPxZeroFills := by
  unfold Obligations.BufAllocPxZeroFills
  intro s
  exact ⟨s.allocAnswer, s.allocAnswered.env, Memory.zeroed, answers_allocAnswer s, allocAnswered_inputs s, fun _ => rfl,
    exec_bufAllocPx s⟩

/-- Settles O16: an empty list of cells holds no value. -/
theorem bufAllocPlMakesTheSessionLive : Obligations.BufAllocPlMakesTheSessionLive := by
  unfold Obligations.BufAllocPlMakesTheSessionLive
  intro s px hpx
  exact ⟨s.allocAnswer, s.allocAnswered.env, Pulses.fresh, answers_allocAnswer s, allocAnswered_inputs s, fun _ => rfl,
    exec_bufAllocPl hpx⟩

/-! ### The buffers are written -/

/-- A cell of the pixel memory after a run of bytes was written from cell 0 on. -/
theorem some_read_writeN {m : Memory} (hm : m.wf = true) (bs : List Byte) (i : Nat) :
    some ((m.writeN 0 bs).read i) = if i < bs.length then bs[i]? else some (m.read i) := by
  split_ifs with hi
  · rw [Memory.read_writeN_inside hm (Nat.zero_le i) hi, List.getElem?_eq_getElem hi]
    rfl
  · rw [Memory.read_writeN_outside m (.inr (by omega))]

/-- A pulse cell after a run of descriptors was written from cell 0 on. -/
theorem cellAt_writeN (m : Pulses) (ps : List Pd) (j : Nat) :
    cellAt (Pulses.writeN m 0 ps) j = if j < ps.length then ps[j]? else cellAt m j := by
  split_ifs with hj
  · exact Pulses.cellAt_writeN_inside m (Nat.zero_le j) (by omega)
  · exact Pulses.cellAt_writeN_outside m (.inr (by omega))

section
variable {x : Session} (hx : s.slot = some x)
include hx

theorem copyLen_of_slot : s.copyLen = min s.showData.length (3 * x.ledCount) := by
  rw [State.copyLen, ledCount_of_slot hx, pxCells]

theorem pxAt_of_slot (i : Nat) : s.pxAt i = if i < pxCells x.ledCount then some (x.px.read i) else none := by
  simp only [State.pxAt, hx]

theorem plAt_of_slot (j : Nat) : s.plAt j = if j < plCells x.ledCount then cellAt x.pl j else none := by
  simp only [State.plAt, hx]

theorem exec_bufCopy :
    exec .bufCopy s =
      .next { s with
        phase := .showEncode
        slot := some { x with px := Memory.writeN x.px 0 (s.showData.take s.copyLen) } } := by
  simp only [exec, execBufCopy, State.onSession, hx]
  rfl

theorem exec_bufFill :
    exec .bufFill s =
      .next { s with
        phase := .showSubmit
        slot := some { x with
          pl := Pulses.writeN x.pl 0 (encSeq s.par.tp (Memory.readN x.px 0 s.copyLen)) } } := by
  simp only [exec, execBufFill, State.onSession, hx]
  rfl

end

/-- Settles O19: below `copy_len`, which lies within the buffer, a cell reads as the byte written; above it as before. -/
theorem bufCopyWritesThePrefix : Obligations.BufCopyWritesThePrefix := by
  unfold Obligations.BufCopyWritesThePrefix
  refine ⟨fun _ => rfl, fun s x hx hwf => ?_⟩
  refine ⟨_, _, exec_bufCopy hx, rfl, Memory.writeN_wf hwf 0 _, fun i => ?_⟩
  have hle := copyLen_le_pxCells hx
  rw [← copyLen_of_slot hx, pxAt_of_slot hx, pxAt_of_slot rfl, some_read_writeN hwf, State.showData_take_length]
  by_cases hi : i < s.copyLen
  · rw [if_pos (show i < pxCells x.ledCount by omega), if_pos hi, if_pos hi, List.getElem?_take_of_lt hi]
  · simp only [if_neg hi]

/-- The descriptor at `j` of the encoding of the first `n` bytes of `PX` (R121, R148). -/
theorem encSeq_readN_getElem? (tp : TimingProfile) (m : Memory) {n j : Nat} (hj : j < 8 * n) :
    (encSeq tp (m.readN 0 n))[j]? = some (symbolFor tp ((m.read (j / 8)).getLsbD (7 - j % 8))) := by
  have hlen : j / 8 < (m.readN 0 n).length := by rw [Memory.readN_length]; omega
  have hbyte : (m.readN 0 n)[j / 8]? = some (m.read (j / 8)) := by
    rw [List.getElem?_eq_getElem hlen, Memory.readN_getElem, Nat.zero_add]
  have ⟨_, helem⟩ := encodedSequenceElements tp (m.readN 0 n)
  exact helem j _ hbyte

/-- Settles O20: below `8 * copy_len`, which lies within the buffer, a cell holds the descriptor written; above it what it
held. -/
theorem bufFillEncodesThePrefix : Obligations.BufFillEncodesThePrefix := by
  unfold Obligations.BufFillEncodesThePrefix
  refine ⟨fun _ => rfl, fun s x hx => ?_⟩
  refine ⟨_, _, exec_bufFill hx, rfl, fun j => ?_⟩
  have hpx := copyLen_le_pxCells hx
  have hpl : 8 * s.copyLen ≤ plCells x.ledCount := txCount_le_plCells hx
  rw [← copyLen_of_slot hx, plAt_of_slot hx, plAt_of_slot rfl, pxAt_of_slot hx, cellAt_writeN, encSeq_length,
    Memory.readN_length]
  by_cases hj : j < 8 * s.copyLen
  · rw [if_pos (show j < plCells x.ledCount by omega), if_pos hj, if_pos hj, encSeq_readN_getElem? _ _ hj,
      if_pos (show j / 8 < pxCells x.ledCount by omega), Option.map_some]
  · simp only [if_neg hj]

end

end Sys2Proof.Machine
end

section
/-! The pool (20_memory.md R65, 41_buffer_manager.md R150): which blocks are live, and that INITIALIZE alone allocates and
frees. -/

namespace Sys2Proof.Machine
open Sys2Proof.Claims

section
variable {s t : State}

/-! ### The blocks that are live -/

theorem length_sessionBlocks_le (o : Option Session) : (sessionBlocks o).length ≤ 2 := by
  cases o <;> simp [sessionBlocks]

/-- Between the two allocations the pixel block of the call is the only one (R143, R163). -/
theorem State.Inv.heapLive_between (hs : s.Inv) (hp : s.phase = .initAllocPl) :
    s.heapLive = [⟨.px, pxCells s.callLeds⟩] := by
  have hslot : s.slot = none := hs.noSession (by rw [hp]; rfl)
  have hpx : s.newPx = some Memory.zeroed := by rw [hs.building, if_pos hp]
  rw [hs.ledgered, State.ledger, hslot, hpx]
  rfl

/-- Settles O45: one block between the two allocations of INITIALIZE, elsewhere the session's. -/
theorem atMostTwoBlocksAreLive : Obligations.AtMostTwoBlocksAreLive := by
  unfold Obligations.AtMostTwoBlocksAreLive
  intro s hs
  constructor
  · by_cases hp : s.phase = .initAllocPl
    · rw [hs.heapLive_between hp]
      simp
    · rw [hs.heapLive_eq hp]
      exact length_sessionBlocks_le s.slot
  · intro hp
    rw [hs.heapLive_eq (by simp [hp])]
    cases s.slot <;> rfl

/-! ### Who allocates and frees -/

/-- The event is no `Alloc` and no `Free` (R46, R65). -/
def Event.sparesPool : Event → Bool
  | .alloc _ _ _ | .free _ _ => false
  | _ => true

theorem Event.sparesPool_ne {e : Event} (h : e.sparesPool = true) :
    (∀ k n ok, e ≠ .alloc k n ok) ∧ ∀ k n, e ≠ .free k n := by
  constructor
  · rintro _ _ _ rfl
    cases h
  · rintro _ _ rfl
    cases h

/-- From `s` to `t` no block is allocated and none freed. -/
def State.SparesPool (s t : State) : Prop :=
  t.heapLive = s.heapLive ∧ ∃ h, t.hist = s.hist ++ h ∧ h.all Event.sparesPool = true

theorem State.SparesPool.of_eq (hheap : t.heapLive = s.heapLive) (hhist : t.hist = s.hist) : s.SparesPool t :=
  ⟨hheap, [], by rw [hhist, List.append_nil], rfl⟩

theorem State.SparesPool.after_beside {s' : State} (hb : s.Beside s') (h : s'.SparesPool t) : s.SparesPool t := by
  obtain ⟨_, _, _, _, rfl⟩ := hb
  exact h

theorem State.Beside.sparesPool (hb : s.Beside t) : s.SparesPool t := .after_beside hb (.of_eq rfl rfl)

theorem State.Accepts.sparesPool (ha : s.Accepts t) : s.SparesPool t := by
  obtain ⟨s', _, _, e, _, hb, -, rfl⟩ := ha
  exact .after_beside hb ⟨rfl, [.cmd e], rfl, rfl⟩

theorem TxDoes.sparesPool {f : Frame} (h : TxDoes f s t) : s.SparesPool t := by
  cases h with
  | completes => exact ⟨rfl, [.wire f.pin f.seq], rfl, rfl⟩
  | _ => exact .of_eq (by simp) (by simp)

/-- Every operation of the core but the first three of INITIALIZE's body. -/
theorem CoreDoes.sparesPool (h : CoreDoes s t) (hrel : s.phase ≠ .initRelease) (hpx : s.phase ≠ .initAllocPx)
    (hpl : s.phase ≠ .initAllocPl) : s.SparesPool t := by
  cases h with
  | releases hp => exact absurd hp hrel
  | pxGranted hp | pxRefused hp => exact absurd hp hpx
  | plGranted hp | plRefused hp => exact absurd hp hpl
  | initPasses | releasesNone | showPasses | copies | fills | waitBlocked => exact .of_eq rfl rfl
  | _ => exact ⟨rfl, _, rfl, rfl⟩

/-- Settles O41: neither the host nor TX nor an acceptance reaches the pool, and of the operations of the core three alone. -/
theorem onlyInitializeAllocates : Obligations.OnlyInitializeAllocates := by
  unfold Obligations.OnlyInitializeAllocates
  intro s t h hr hrel hpx hpl
  have hspares : s.SparesPool t := by
    rcases step_cases h (not_rst_of_not_resetNow hr) with
      hb | ⟨-, ha⟩ | ⟨s', hb, hd⟩ | ⟨s', f, hb, -, -, -, hd⟩
    · exact hb.sparesPool
    · exact ha.sparesPool
    · rw [← hb.phase_eq] at hrel hpx hpl
      exact .after_beside hb (hd.sparesPool hrel hpx hpl)
    · exact .after_beside hb hd.sparesPool
  obtain ⟨hheap, h, hhist, hall⟩ := hspares
  exact ⟨hheap, h, hhist, fun e he => Event.sparesPool_ne (List.all_eq_true.mp hall e he)⟩

end

end Sys2Proof.Machine
end

section
/-! INITIALIZE run from the command port (42_initialize.md R160, R163): what an idle core has come to when it first asks the
pool, and how a refusal ends it (R145, R164, R165). -/

namespace Sys2Proof.Machine
open Sys2Proof.Claims

section
variable {s t : State}

/-! ### Running the core under a silent host -/

theorem run_of_step (h : step s = .next t) (k : Nat) :
    Host.Core.run Sys2Proof.core (k + 1) s = Host.Core.run Sys2Proof.core k t := by
  have hstep : Sys2Proof.core.step s = .next t := h
  simp only [Host.Core.run, hstep]

/-- With no input to come and no frame for TX the core runs the operation its phase stands for, on the state as it is. -/
theorem step_of_silent {i : Instr} {p : Phase} (hin : s.env.inputs = []) (hp : s.phase = p) (hw : p ≠ .showWait)
    (hi : coreFetch s = some i) : step s = exec i s := by
  have hnext : s.nextInput = s := by rw [State.nextInput, hin, List.tail_nil, ← hin]
  rw [step_of_quiet_core (.inl hin) (txFrame_eq_none (hp ▸ hw)) hi, hnext]

/-! ### The call of INITIALIZE -/

/-- The call of INITIALIZE with two integer arguments (R93, R160). -/
def initializeCall (pin leds : Word) : Call := { argc := 2, tag0 := 1, tag1 := 1, arg0 := pin, arg1 := leds, data := [] }

theorem header_initializeCall (pin leds : Word) : (initializeCall pin leds).header opcInitialize = 0x1121 := by
  simp [Call.header, initializeCall, opcInitialize]

theorem present_initializeCall (pin leds : Word) :
    (initializeCall pin leds).present opcInitialize = { cmd := 0x1121, arg0 := pin, arg1 := leds, data := [] } := by
  rw [Call.present, header_initializeCall]
  rfl

/-- No argument is a byte sequence, so whatever `DATA` the host offers is cut away (R95). -/
theorem decode_initializeCall (tp : TimingProfile) (pin leds : Word) (data : List Byte) :
    decode tp (.cmd { cmd := 0x1121, arg0 := pin, arg1 := leds, data := data }) =
      .ok (.hostInitialize (initializeCall pin leds)) := by
  have hcall : ({ cmd := 0x1121, arg0 := pin, arg1 := leds, data := data } : Presented).call =
      { initializeCall pin leds with data := data } := by
    simp [Presented.call, initializeCall]
  have hcut : ({ initializeCall pin leds with data := data } : Call).cutData = initializeCall pin leds := by
    simp [Call.cutData, initializeCall, Call.dataLen, Call.bytes0, Call.bytes1, tagBytes]
  simp only [decode, decodeCommand, hcall, hcut]
  rfl

theorem callMissing_initializeCall (pin leds : Word) : callMissing (initializeCall pin leds) = 0 := rfl

theorem callArgs_initializeCall (pin leds : Word) :
    callArgs (initializeCall pin leds) = [.int pin.toInt, .int leds.toInt] := rfl

theorem initializeError_initializeCall (pin : Word) {leds : Word} (h : 1 ≤ leds.toInt) :
    initializeError (callArgs (initializeCall pin leds)) = none := by
  rw [callArgs_initializeCall, initializeError, if_neg (by omega)]

/-! ### From the port to the first allocation -/

/-- Where the pool holds the blocks of the session, a release leaves it empty (R146, R163). -/
theorem release_of_heapLive_eq (h : s.heapLive = sessionBlocks s.slot) :
    s.release = { s with slot := none, heapLive := [], hist := s.hist ++ frees s.slot } := by
  cases hx : s.slot with
  | none =>
    rw [hx] at h
    have hempty : s.heapLive = [] := h
    rw [release_of_none hx, frees, List.append_nil, ← hx, ← hempty]
  | some x =>
    rw [hx] at h
    rw [release_of_some hx, h]
    simp [sessionBlocks, pxCells, plCells, frees]

/-- The idle core `s` with INITIALIZE accepted for this pin and this LED count (R251). -/
def State.initializeAccepted (pin leds : Word) (s : State) : State :=
  { s with
    phase := .initCheck, cmd := 0x1121, arg0 := pin, arg1 := leds, call := initializeCall pin leds
    hist := s.hist ++ [.cmd ⟨.hostInitialize, [.int pin.toInt, .int leds.toInt]⟩]
    env := { s.env with inputs := [] } }

/-- The idle core `s` three steps into that INITIALIZE, about to ask for the first block (R163). -/
def State.initializing (pin leds : Word) (s : State) : State :=
  { s.initializeAccepted pin leds with
    phase := .initAllocPx, slot := none, heapLive := []
    hist := s.hist ++ [.cmd ⟨.hostInitialize, [.int pin.toInt, .int leds.toInt]⟩] ++ frees s.slot }

section
variable {pin leds : Word}

/-- The port of the idle core takes the command (R251). -/
theorem step_initialize_port {data : List Byte} (hp : s.phase = .idle)
    (hin : s.env.inputs = [.present { cmd := 0x1121, arg0 := pin, arg1 := leds, data := data }]) :
    step s = .next (s.initializeAccepted pin leds) := by
  rw [step_present_idle hin hp, takeCommand, decode_initializeCall]
  simp only [exec, execHostInitialize, hp, present_initializeCall, State.dataDrawn, callMissing_initializeCall, if_true,
    State.nextInput, hin]
  rfl

/-- A positive LED count passes the check (R161, R162). -/
theorem step_initialize_check (hleds : 1 ≤ leds.toInt) :
    step (s.initializeAccepted pin leds) = .next { s.initializeAccepted pin leds with phase := .initRelease } := by
  have herr : initializeError (callArgs (s.initializeAccepted pin leds).call) = none :=
    initializeError_initializeCall pin hleds
  rw [step_of_silent (p := .initCheck) rfl rfl nofun rfl]
  simp only [exec, execHostInitialize, herr]
  rfl

/-- The old session, if any, is released (R163). -/
theorem step_initialize_release (hheap : s.heapLive = sessionBlocks s.slot) :
    step { s.initializeAccepted pin leds with phase := .initRelease } = .next (s.initializing pin leds) := by
  have hheap' : ({ s.initializeAccepted pin leds with phase := .initRelease } : State).heapLive =
      sessionBlocks s.slot := hheap
  rw [step_of_silent (p := .initRelease) rfl rfl nofun rfl, exec, execBufRelease, release_of_heapLive_eq hheap']
  rfl

/-- The three steps of INITIALIZE before it asks for the first block (R160 to R163). -/
theorem run_initialize {data : List Byte} (hs : s.Inv) (hp : s.phase = .idle)
    (hin : s.env.inputs = [.present { cmd := 0x1121, arg0 := pin, arg1 := leds, data := data }])
    (hleds : 1 ≤ leds.toInt) (k : Nat) :
    Host.Core.run Sys2Proof.core (k + 3) s = Host.Core.run Sys2Proof.core k (s.initializing pin leds) := by
  have hheap : s.heapLive = sessionBlocks s.slot := hs.heapLive_eq (by simp [hp])
  rw [run_of_step (step_initialize_port hp hin), run_of_step (step_initialize_check hleds),
    run_of_step (step_initialize_release hheap)]

end

/-! ### The answers of the pool -/

/-- A refused pixel block ends INITIALIZE with everything else as it was (R143, R165). -/
theorem step_pxRefused {as : List Bool} (hin : s.env.inputs = []) (hp : s.phase = .initAllocPx)
    (has : s.env.allocAnswers = false :: as) :
    step s = .next (responded .outOfMemory
      { s with env := { s.env with allocAnswers := as }, hist := s.hist ++ [.alloc .px (3 * leds s) false] }) := by
  rw [step_of_silent hin hp nofun (by rw [coreFetch_eq, hp]), exec_bufAllocPx, allocAnswer_written has,
    allocAnswered_written has]
  rfl

/-- A granted pixel block is all zero, and the pulse block is asked for next (R143). -/
theorem step_pxGranted {as : List Bool} (hin : s.env.inputs = []) (hp : s.phase = .initAllocPx)
    (has : s.env.allocAnswers = true :: as) :
    step s = .next { s with
      phase := .initAllocPl, newPx := some Memory.zeroed, env := { s.env with allocAnswers := as }
      heapLive := s.heapLive ++ [⟨.px, 3 * leds s⟩]
      hist := s.hist ++ [.alloc .px (3 * leds s) true] } := by
  rw [step_of_silent hin hp nofun (by rw [coreFetch_eq, hp]), exec_bufAllocPx, allocAnswer_written has,
    allocAnswered_written has]
  rfl

/-- A refused pulse block ends INITIALIZE with the pixel block of the same call freed (R145). -/
theorem step_plRefused {as : List Bool} {px : Memory} (hin : s.env.inputs = []) (hp : s.phase = .initAllocPl)
    (hpx : s.newPx = some px) (has : s.env.allocAnswers = false :: as) :
    step s = .next (responded .outOfMemory
      { s with
        newPx := none, env := { s.env with allocAnswers := as }, heapLive := s.heapLive.erase ⟨.px, 3 * leds s⟩
        hist := s.hist ++ [.alloc .pl (24 * leds s) false, .free .px (3 * leds s)] }) := by
  rw [step_of_silent hin hp nofun (by rw [coreFetch_eq, hp]), exec_bufAllocPl hpx, allocAnswer_written has,
    allocAnswered_written has]
  rfl

/-- Settles O50: after the release the pool is empty; it refuses the first block, or grants it and has it back. -/
theorem failedAllocationLeavesNoSession : Obligations.FailedAllocationLeavesNoSession := by
  unfold Obligations.FailedAllocationLeavesNoSession
  intro s pinWord ledWord data as second hs hp hin hleds has
  have hpx : s.newPx = none := hs.newPx_eq_none (by simp [hp])
  cases second with
  | false =>
    have hrefused := step_pxRefused (s := s.initializing pinWord ledWord) rfl rfl has
    have hrun := (run_initialize hs hp hin hleds 1).trans (run_of_step hrefused 0)
    exact ⟨_, hrun, rfl, rfl, rfl, rfl, hpx, rfl, rfl, rfl⟩
  | true =>
    have hgranted := step_pxGranted (s := s.initializing pinWord ledWord) rfl rfl has
    have hrun := (run_initialize hs hp hin hleds 2).trans (run_of_step hgranted 1)
    have hend := hrun.trans (run_of_step (step_plRefused (by rfl) (by rfl) (by rfl) (by rfl)) 0)
    exact ⟨_, hend, rfl, rfl, rfl, List.erase_cons_head .., rfl, rfl, rfl, rfl⟩

end

end Sys2Proof.Machine
end

section
/-! The two requests INITIALIZE makes of TX (44_tx_boundary.md R201, R202, R232, R233), each as one equation: what it asks and
what either answer leaves. -/

namespace Sys2Proof.Machine
open Sys2Proof.Claims

section
variable {s : State}

/-- An answer of TX written down is used up, and no free draw (R206). -/
theorem txAnswered_written {a : Bool} {rest : List Bool} (h : s.env.txAnswers = a :: rest) :
    s.txAnswered.env = { s.env with txAnswers := rest } := by
  simp only [State.txAnswered, h]

theorem pin_of_slot {x : Session} (hx : s.slot = some x) : s.pin = x.pin := by simp only [State.pin, hx]

theorem exec_txConfigure {x : Session} (hx : s.slot = some x) :
    exec .txConfigure s =
      .next
        (if s.txAnswer then
          { s with
            phase := .initTxInstall, txCfg := some (.forPin x.pin), lineLow := decide (1 ≤ s.txInstalled)
            env := s.txAnswered.drawn.env
            hist := s.hist ++ [.txConfigure (.forPin x.pin) true] }
        else
          failed .txConfigure (.txConfigure (.forPin x.pin) false) { s with env := s.txAnswered.drawn.env }) := by
  simp only [exec, execTxConfigure, pin_of_slot hx, State.raiseFatal, State.goto, State.emit, List.append_assoc]
  rw [txAnswered_eq]
  rfl

theorem exec_txInstall (s : State) :
    exec .txInstall s =
      .next
        (if s.txAnswer then
          responded .ok
            { s with
              txInstalled := s.txInstalled + 1, lineLow := true, env := s.txAnswered.env
              hist := s.hist ++ [.txInstall true] }
        else failed .txInstall (.txInstall false) { s with env := s.txAnswered.env }) := by
  simp only [exec, execTxInstall, State.raiseFatal, State.goto, State.emit, List.append_assoc]
  rw [txAnswered_eq]
  rfl

end

end Sys2Proof.Machine
end

section
/-! INITIALIZE checked, and run to its result `OK` (42_initialize.md R161, R162, R166 to R169, R172): both blocks are granted,
TX takes the record of the session's pin and is installed. -/

namespace Sys2Proof.Machine
open Sys2Proof.Claims

section
variable {s : State}

/-! ### The argument check -/

/-- In its check INITIALIZE responds with the error its arguments have; with none it goes on to the release (R161, R162). -/
theorem exec_hostInitialize_check (c : Call) (hp : s.phase = .initCheck) :
    exec (.hostInitialize c) s =
      .next ((initializeError (callArgs c)).elim { s with phase := .initRelease } (responded · s)) := by
  simp only [exec, execHostInitialize, hp]
  cases initializeError (callArgs c) <;> rfl

/-- Settles O12: each answer of the check in the order of its tests. -/
theorem initializeArgumentCheck : Obligations.InitializeArgumentCheck := by
  unfold Obligations.InitializeArgumentCheck
  intro c s hp
  rw [exec_hostInitialize_check c hp, initializeError_call]
  split_ifs <;> rfl

/-! ### Every answer favourable -/

/-- A granted pulse block makes the session live (R144, R166). -/
theorem step_plGranted {as : List Bool} {px : Memory} (hin : s.env.inputs = []) (hp : s.phase = .initAllocPl)
    (hpx : s.newPx = some px) (has : s.env.allocAnswers = true :: as) :
    step s = .next { s with
      phase := .initTxConfigure, newPx := none, env := { s.env with allocAnswers := as }
      slot := some { pin := s.call.arg0.toInt, ledCount := leds s, px := px, pl := Pulses.fresh }
      heapLive := s.heapLive ++ [⟨.pl, 24 * leds s⟩]
      hist := s.hist ++ [.alloc .pl (24 * leds s) true] } := by
  rw [step_of_silent hin hp nofun (by rw [coreFetch_eq, hp]), exec_bufAllocPl hpx, allocAnswer_written has,
    allocAnswered_written has]
  rfl

/-- TX takes the record for the pin of the session (R167, R201). -/
theorem step_configured {ts : List Bool} {x : Session} (hin : s.env.inputs = []) (hp : s.phase = .initTxConfigure)
    (hx : s.slot = some x) (hts : s.env.txAnswers = true :: ts) :
    step s = .next { s with
      phase := .initTxInstall, txCfg := some (.forPin x.pin), lineLow := decide (1 ≤ s.txInstalled)
      env := { s.env with txAnswers := ts, draws := s.env.draws + 1 }
      hist := s.hist ++ [.txConfigure (.forPin x.pin) true] } := by
  rw [step_of_silent hin hp nofun (by rw [coreFetch_eq, hp]), exec_txConfigure hx, txAnswer_written hts, State.drawn,
    txAnswered_written hts]
  rfl

/-- TX is installed, and INITIALIZE is done (R168, R169, R202). -/
theorem step_installed {ts : List Bool} (hin : s.env.inputs = []) (hp : s.phase = .initTxInstall)
    (hts : s.env.txAnswers = true :: ts) :
    step s = .next (responded .ok { s with
      txInstalled := s.txInstalled + 1, lineLow := true, env := { s.env with txAnswers := ts }
      hist := s.hist ++ [.txInstall true] }) := by
  rw [step_of_silent hin hp nofun (by rw [coreFetch_eq, hp]), exec_txInstall, txAnswer_written hts, txAnswered_written hts]
  rfl

/-- The two allocations granted: a session all zero, with both its blocks (R143, R144, R166). -/
theorem run_allocations {as : List Bool} (hin : s.env.inputs = []) (hp : s.phase = .initAllocPx)
    (has : s.env.allocAnswers = true :: true :: as) (k : Nat) :
    Host.Core.run Sys2Proof.core (k + 2) s =
      Host.Core.run Sys2Proof.core k { s with
        phase := .initTxConfigure, newPx := none, env := { s.env with allocAnswers := as }
        slot := some { pin := s.call.arg0.toInt, ledCount := leds s, px := Memory.zeroed, pl := Pulses.fresh }
        heapLive := s.heapLive ++ [⟨.px, 3 * leds s⟩, ⟨.pl, 24 * leds s⟩]
        hist := s.hist ++ [.alloc .px (3 * leds s) true, .alloc .pl (24 * leds s) true] } := by
  refine Eq.trans (run_of_step (step_pxGranted hin hp has) (k + 1)) ?_
  refine Eq.trans (run_of_step (step_plGranted (by exact hin) (by rfl) (by rfl) (by rfl)) k) ?_
  simp only [List.append_assoc]
  rfl

/-- The two requests of TX accepted: the record of the session's pin is in force, and the result is `OK` (R167 to R169). -/
theorem run_txRequests {ts : List Bool} {x : Session} (hin : s.env.inputs = []) (hp : s.phase = .initTxConfigure)
    (hx : s.slot = some x) (hts : s.env.txAnswers = true :: true :: ts) (k : Nat) :
    Host.Core.run Sys2Proof.core (k + 2) s =
      Host.Core.run Sys2Proof.core k (responded .ok { s with
        txCfg := some (.forPin x.pin), txInstalled := s.txInstalled + 1, lineLow := true
        env := { s.env with txAnswers := ts, draws := s.env.draws + 1 }
        hist := s.hist ++ [.txConfigure (.forPin x.pin) true, .txInstall true] }) := by
  refine Eq.trans (run_of_step (step_configured hin hp hx hts) (k + 1)) ?_
  refine Eq.trans (run_of_step (step_installed (by exact hin) (by rfl) (by rfl)) k) ?_
  simp only [responded, List.append_assoc]
  rfl

/-- Settles O49: three steps to the first allocation, two allocations, two requests of TX. -/
theorem initializeRunsToOk : Obligations.InitializeRunsToOk := by
  unfold Obligations.InitializeRunsToOk
  intro s pinWord ledWord data as ts hs hp hin hleds has hts
  have hgranted := run_allocations (s := s.initializing pinWord ledWord) rfl rfl has 2
  have hlive := (run_initialize hs hp hin hleds 4).trans hgranted
  have hrun := hlive.trans (run_txRequests (by rfl) (by rfl) (by rfl) (by exact hts) 0)
  have hcount : 0 ≤ ledWord.toInt := by omega
  refine ⟨_, _, hrun, rfl, rfl, rfl, rfl, Int.toNat_of_nonneg hcount, fun _ => rfl, fun j => ?_, rfl, rfl, rfl, ?_⟩
  · rw [plAt_of_slot rfl]
    exact ite_self none
  · simp only [responded, State.initializing, List.append_assoc]
    rfl

end

end Sys2Proof.Machine
end

section
/-! The output line between frames (44_tx_boundary.md R208, 70_reset_and_hazards.md R262): where the invariant has it low, a look
reads low. -/

namespace Sys2Proof.Machine

section
variable {s : State}

theorem readLine_of_low (h : s.lineLow = true) : s.readLine = (.low, s) := by rw [State.readLine, if_pos h]

/-- A look at the line moves nothing but the counter of free draws (R200, R262). -/
theorem readLine_frame (s : State) : ∃ level k, s.readLine = (level, { s with env := { s.env with draws := k } }) := by
  by_cases h : s.lineLow = true
  · exact ⟨.low, s.env.draws, readLine_of_low h⟩
  · exact ⟨_, s.env.draws + 1, if_neg h⟩

/-- Settles O31: the clauses of the invariant on the line, at the end of a wait the one on a frame that was sent. -/
theorem lineIsLowBetweenFrames : Obligations.LineIsLowBetweenFrames := by
  unfold Obligations.LineIsLowBetweenFrames
  intro s
  refine ⟨fun hs hp hx => ?_, fun hs hn hdone herr htimeout => ?_, readLine_frame s⟩
  · exact readLine_of_low (hs.idleLine (by rw [hp]; rfl) hx)
  · apply readLine_of_low
    by_cases hw : s.phase = .showWait
    · obtain ⟨-, hlow, -⟩ := hs.sent hw (hdone hw)
      exact hlow
    · exact hs.installedLine hn hw herr htimeout

end

end Sys2Proof.Machine
end

section
/-! SHOW checked, and what its data decide (43_show.md R181 to R187, R191): the argument check, the first `copy_len` bytes, the
sequence submitted, and the end of the wait. -/

namespace Sys2Proof.Machine
open Sys2Proof.Claims Sys2Proof.Proofs.WaitBound

section
variable {s : State}

/-! ### The argument check -/

theorem live_eq_false_iff (s : State) : s.live = false ↔ s.slot = none := by simp [State.live]

/-- In its check SHOW responds with the error its arguments or its precondition have; with none it goes on to the copy (R181,
R182). -/
theorem exec_hostShow_check (c : Call) (hp : s.phase = .showCheck) :
    exec (.hostShow c) s =
      .next ((showError (callArgs c) s.live).elim { s with phase := .showCopy } (responded · s)) := by
  simp only [exec, execHostShow, hp]
  cases showError (callArgs c) s.live <;> rfl

/-- Settles O13: each answer of the check in the order of its tests. -/
theorem showArgumentCheck : Obligations.ShowArgumentCheck := by
  unfold Obligations.ShowArgumentCheck
  intro c s hp
  rw [exec_hostShow_check c hp, showError_call]
  simp only [live_eq_false_iff]
  split_ifs <;> rfl

/-! ### The bytes within the capacity -/

/-- The first `copy_len` bytes are `DATA` cut to the capacity `3N` (R183). -/
theorem take_copyLen {x : Session} (hx : s.slot = some x) :
    s.showData.take s.copyLen = s.showData.take (3 * x.ledCount) := by
  rw [copyLen_of_slot hx, List.take_eq_take_iff]
  omega

/-- A pulse buffer that holds a sequence of `8 * copy_len` descriptors from cell 0 on submits that sequence (R186, R203). -/
theorem submission_of_plAt {seq : List Pd} (hlen : seq.length = s.txCount)
    (h : ∀ j, j < s.txCount → s.plAt j = seq[j]?) : s.submission = seq := by
  refine List.ext_getElem? fun j => ?_
  by_cases hj : j < s.txCount
  · rw [State.submission, plReadN_getElem? s 0 _ j hj, Nat.zero_add, State.plRead, h j hj,
      List.getElem?_eq_getElem (by omega), Option.getD_some]
  · rw [List.getElem?_eq_none (by rw [State.submission, plReadN_length]; omega), List.getElem?_eq_none (by omega)]

/-- After BUF.FILL the sequence submitted is the encoding of the first `copy_len` bytes of `PX` (R148, R186). -/
theorem submission_filled {x : Session} (hx : s.slot = some x) {pl : Pulses} {p : Phase} :
    ({ s with
        phase := p
        slot := some { x with pl := Pulses.writeN pl 0 (encSeq s.par.tp (x.px.readN 0 s.copyLen)) } } :
      State).submission = encSeq s.par.tp (x.px.readN 0 s.copyLen) := by
  have hcount := txCount_setSession (s := s) (y := { x with
    pl := Pulses.writeN pl 0 (encSeq s.par.tp (x.px.readN 0 s.copyLen)) }) hx rfl p
  have hlen : (encSeq s.par.tp (x.px.readN 0 s.copyLen)).length = s.txCount := by simp [State.txCount]
  refine submission_of_plAt (hlen.trans hcount.symm) fun j hj => ?_
  rw [plAt_of_lt_txCount rfl hj, Pulses.cellAt_writeN_inside pl (Nat.zero_le j) (by omega), Nat.sub_zero]

/-- BUF.FILL, and the sequence submitted after it, look at the session, at `copy_len` and at the profile (R148, R186). -/
theorem bufFill_congr {s' : State} {x : Session} (hx : s.slot = some x) (hx' : s'.slot = some x)
    (hlen : s.copyLen = s'.copyLen) (htp : s.par.tp = s'.par.tp) :
    ∃ u u', exec .bufFill s = .next u ∧ exec .bufFill s' = .next u' ∧ u.slot = u'.slot ∧
      u.submission = u'.submission := by
  refine ⟨_, _, exec_bufFill hx, exec_bufFill hx', ?_, ?_⟩
  · rw [hlen, htp]
  · rw [submission_filled hx, submission_filled hx', hlen, htp]

/-- BUF.COPY writes the first `copy_len` bytes and leaves `copy_len` and the parameters as they were (R147, R184). -/
theorem exec_bufCopy_next {x : Session} (hx : s.slot = some x) :
    ∃ t, exec .bufCopy s = .next t ∧ t.slot = some { x with px := x.px.writeN 0 (s.showData.take s.copyLen) } ∧
      t.copyLen = s.copyLen ∧ t.par = s.par :=
  ⟨_, exec_bufCopy hx, rfl, copyLen_setSession hx (by rfl) _, rfl⟩

/-- Settles O48: `DATA` cut to the capacity has `copy_len` bytes, and they alone are copied, encoded and submitted. -/
theorem bytesBeyondCapacityDecideNothing : Obligations.BytesBeyondCapacityDecideNothing := by
  unfold Obligations.BytesBeyondCapacityDecideNothing
  intro s s' x hx hx' htp hdata
  have hprefix : s.showData.take s.copyLen = s'.showData.take s'.copyLen := by
    rw [take_copyLen hx, take_copyLen hx', hdata]
  have hlen : s.copyLen = s'.copyLen := by
    rw [← s.showData_take_length, ← s'.showData_take_length, hprefix]
  have hframe : s.frame = s'.frame := by rw [State.frame, State.frame, htp, hprefix]
  obtain ⟨t, hcopy, hslot, hlent, hpar⟩ := exec_bufCopy_next hx
  obtain ⟨t', hcopy', hslot', hlent', hpar'⟩ := exec_bufCopy_next hx'
  rw [← hprefix] at hslot'
  obtain ⟨u, u', hfill⟩ := bufFill_congr hslot hslot' (by rw [hlent, hlent', hlen]) (by rw [hpar, hpar', htp])
  exact ⟨hlen, hframe, t, t', u, u', hcopy, hcopy', hslot.trans hslot'.symm, hfill⟩

/-! ### The end of the wait -/

/-- SHOW leaves its wait for `IDLE` by reset or because TX has signalled `done` (R187, R204). -/
theorem step_showWait_idle {t : State} (h : step s = .next t) (hr : ¬ resetNow s) (hp : s.phase = .showWait)
    (ht : t.phase = .idle) :
    s.txSignal = some .done ∧
      ∃ s', s.Beside s' ∧
        t = { s' with phase := .idle, result := some .ok, hist := s'.hist ++ [.txWait .done, .result .ok] } := by
  have hne : t.phase ≠ .showWait := by simp [ht]
  rcases step_cases h (not_rst_of_not_resetNow hr) with
    hb | ⟨hi, -⟩ | ⟨s', hb, hd⟩ | ⟨s', f, hb, -, -, -, hd⟩
  · exact absurd (hb.phase_eq.trans hp) hne
  · simp [hp] at hi
  · have hp' : s'.phase = .showWait := hb.phase_eq.trans hp
    cases hd with
    | waitDone _ hdone => exact ⟨hb.txSignal_eq ▸ hdone, s', hb, rfl⟩
    | waitBlocked => exact absurd hp' hne
    | waitErr | waitTimeout => cases ht
    | _ hq => simp [hp'] at hq
  · exact absurd (hd.phase_eq.trans (hb.phase_eq.trans hp)) hne

/-- Settles O46: `OK` comes of the signal `done`, and the invariant says what had been sent by then. -/
theorem showOkMeansTheFrameWasSent : Obligations.ShowOkMeansTheFrameWasSent := by
  unfold Obligations.ShowOkMeansTheFrameWasSent
  intro s t hs h hr hp ht
  obtain ⟨hdone, s', ⟨_, _, _, _, rfl⟩, rfl⟩ := step_showWait_idle h hr hp ht
  obtain ⟨hdur, -, hist, x, hx, hhist⟩ := hs.sent hp hdone
  obtain ⟨-, hbound⟩ := waitBoundIsExact s.par hs.params (dur s.frame)
  refine ⟨hist, x, hx, by simpa [hdone] using hs.waiting hp, rfl, hbound.mp hdur, ?_⟩
  simp only [hhist, List.append_assoc]
  rfl

end

end Sys2Proof.Machine
end

section
/-! TX and its frame under a silent host (44_tx_boundary.md R203 to R207): what TX.SUBMIT and TX.WAIT do, each as one equation,
and a frame that TX drives through, one descriptor a step. -/

namespace Sys2Proof.Machine
open Sys2Proof.Claims

section
variable {s t : State}

/-! ### Inputs and moves -/

/-- A silent host has no input to use up. -/
theorem nextInput_of_silent (hin : s.env.inputs = []) : s.nextInput = s := by
  rw [State.nextInput, hin, List.tail_nil, ← hin]

section
variable {m : TxMove} {ms : List TxMove} (h : s.env.txMoves = m :: ms)
include h

/-- A move written down is the move made (R205). -/
theorem txMove_written : s.txMove = m := by simp only [State.txMove, h]

/-- A move written down is used up, and no free draw (R205). -/
theorem txMoved_written : s.txMoved = { s with env := { s.env with txMoves := ms } } := by simp only [State.txMoved, h]

end

/-! ### The two requests -/

theorem exec_txSubmit (s : State) :
    exec .txSubmit s =
      .next
        (if s.txAnswer then
          { s with
            phase := .showWait, txInflight := some { pin := s.txPin, seq := s.submission, driven := 0, cut := false }
            txSignal := none, waitTimer := 0, env := s.txAnswered.drawn.env
            hist := s.hist ++ [.txSubmit s.submission true] }
        else failed .txSubmit (.txSubmit s.submission false) { s with env := s.txAnswered.drawn.env }) := by
  simp only [exec, execTxSubmit, State.raiseFatal, State.goto, State.emit, List.append_assoc]
  rw [txAnswered_eq]
  rfl

theorem exec_txWait_done (h : s.txSignal = some .done) :
    exec .txWait s = .next (responded .ok { s with hist := s.hist ++ [.txWait .done] }) := by
  have hrespond : execTxWait s = .next (State.respond .ok (State.emit (.txWait .done) s)) := by simp only [execTxWait, h]
  exact hrespond

/-- What an accepted TX.SUBMIT hands over is the frame of the SHOW, on the line of the session (R186, R203). -/
theorem step_submitted {ts : List Bool} {x : Session} (hs : s.Inv) (hin : s.env.inputs = []) (hp : s.phase = .showSubmit)
    (hx : s.slot = some x) (hts : s.env.txAnswers = true :: ts) :
    step s = .next { s with
      phase := .showWait, txInflight := some { pin := x.pin, seq := s.frame, driven := 0, cut := false }
      txSignal := none, waitTimer := 0, env := { s.env with txAnswers := ts, draws := s.env.draws + 1 }
      hist := s.hist ++ [.txSubmit s.frame true] } := by
  have hseq : s.submission = s.frame := submission_eq (hs.filled (by rw [hp]; rfl))
  have hpin : s.txPin = x.pin := by simp [State.txPin, hs.programmed (by rw [hp]; rfl) x hx, TxCfg.forPin]
  rw [step_of_silent hin hp nofun (by rw [coreFetch_eq, hp]), exec_txSubmit, txAnswer_written hts, State.drawn,
    txAnswered_written hts, hseq, hpin]
  rfl

/-- A wait under a silent host ends in `OK` once TX has signalled `done` (R187, R204). -/
theorem step_waitDone (hin : s.env.inputs = []) (hp : s.phase = .showWait) (hsig : s.txSignal = some .done) :
    step s = .next (responded .ok { s with hist := s.hist ++ [.txWait .done] }) := by
  have hframe : s.txFrame = none := by simp [State.txFrame, hsig]
  rw [step_of_quiet_core (.inl hin) hframe (by rw [coreFetch_eq, hp]), nextInput_of_silent hin,
    exec_txWait_done hsig]

/-! ### A symbol read from the pulse buffer -/

/-- A symbol of a profile in range takes time. -/
theorem ticks_pos {tp : TimingProfile} (htp : tp.wf) {d : Pd} (hd : isSymbol tp d) : 0 < Pd.ticks d := by
  obtain ⟨h0, -, h1, -⟩ := htp
  have hhigh : d.high.toNat ≠ 0 := by
    rw [← BitVec.toNat_zero (w := 15), BitVec.toNat_inj.ne]
    rcases hd with rfl | rfl
    · exact h0
    · exact h1
  unfold Pd.ticks
  omega

/-- A symbol of a profile in range decodes to an operation that drives it (R101, R120, R207). -/
theorem decode_symbol {tp : TimingProfile} (htp : tp.wf) {d : Pd} (hd : isSymbol tp d) :
    ∃ i, decode tp (.pd d.pack) = .ok i ∧ ∀ s : State, s.par.tp = tp → exec i s = .next (s.drive d) := by
  obtain ⟨h0, l0, h1, l1, -⟩ := htp
  by_cases hone : d = tp.symbol1
  · subst hone
    refine ⟨.sym1, ?_, fun s hs => by subst hs; rfl⟩
    rw [decode, decodePd_pack tp _ h1 l1, symbolOf_symbol1]
  · have hzero : d = tp.symbol0 := hd.resolve_right hone
    subst hzero
    refine ⟨.sym0, ?_, fun s hs => by subst hs; rfl⟩
    rw [decode, decodePd_pack tp _ h0 l0, symbolOf_symbol0, if_neg hone]

/-! ### The frame driven through -/

/-- The host is silent and TX is at work on the frame `f`, in which it has not stopped (R205). -/
structure State.Driving (f : Frame) (s : State) : Prop where
  inv : s.Inv
  silent : s.env.inputs = []
  waits : s.phase = .showWait
  unsignalled : s.txSignal = none
  inflight : s.txInflight = some f
  whole : f.cut = false

namespace State.Driving
variable {f : Frame} (h : s.Driving f) {ms : List TxMove} (hms : s.env.txMoves = .go :: ms)
include h

theorem seq_eq : f.seq = s.frame := (h.inv.flying h.waits f h.inflight).1

/-- The pulse buffer holds the descriptors of the frame (R77, R185). -/
theorem plRead_eq {j : Nat} {d : Pd} (hd : f.seq[j]? = some d) : s.plRead j = d := by
  have hj : j < s.txCount := by
    rw [← frame_length, ← h.seq_eq]
    exact (List.getElem?_eq_some_iff.mp hd).1
  rw [State.plRead, h.inv.filled (by rw [h.waits]; rfl) j hj, ← h.seq_eq, hd, Option.getD_some]

theorem isSymbol_of_mem {d : Pd} (hd : d ∈ f.seq) : isSymbol s.par.tp d := by
  rw [h.seq_eq] at hd
  exact mem_encSeq hd

include hms

/-- Where TX, going on, acts in time, the step is its move (R204, R205). -/
theorem step_eq_txStep (ht : s.txInTime f .go = true) : step s = txStep f s := by
  have hframe : s.txFrame = some f := by
    simp [State.txFrame, h.waits, h.unsignalled, h.inflight, txMove_written hms, ht]
  rw [step_of_quiet_tx (.inl h.silent) hframe, nextInput_of_silent h.silent]

/-- TX drives the next descriptor of its frame, where that ends within the bound (R207, R211). -/
theorem step_drives {d : Pd} (hd : f.seq[f.driven]? = some d) (ht : s.waitTimer + Pd.ticks d ≤ s.par.waitLast) :
    step s = .next { s with
      txInflight := some { f with driven := f.driven + 1 }, waitTimer := s.waitTimer + Pd.ticks d, lineLow := true
      env := { s.env with txMoves := ms, draws := s.env.draws + 1 } } := by
  obtain ⟨htp, -⟩ := h.inv.params
  have hlt : f.driven < f.seq.length := (List.getElem?_eq_some_iff.mp hd).1
  have hread := h.plRead_eq hd
  have hsym := h.isSymbol_of_mem (List.mem_of_getElem? hd)
  obtain ⟨i, hi, hexec⟩ := decode_symbol htp hsym
  have hintime : s.txInTime f .go = true := by
    have hpos := ticks_pos htp hsym
    have hlast := waitLast_le_waitTicks s.par
    simp only [State.txInTime, hlt, or_true, if_true, decide_eq_true_eq]
    omega
  rw [h.step_eq_txStep hms hintime,
    txStep_symbol (txMove_written hms) h.whole hlt (by rw [hread]; exact ht) (by rw [hread]; exact hi),
    hexec _ (by simp), drive_some d (by simp [h.inflight]) hlt, txMoved_written hms]
  rfl

/-- TX is complete when the whole frame has been driven within the bound (R205). -/
theorem step_completes (hl : f.driven = f.seq.length) (ht : s.waitTimer ≤ s.par.waitLast) :
    step s = .next { s with
      txInflight := none, txSignal := some .done, lineLow := true, env := { s.env with txMoves := ms }
      hist := s.hist ++ [.wire f.pin f.seq] } := by
  have hintime : s.txInTime f .go = true := by simp [State.txInTime, h.whole, hl, ht]
  have hcomplete : txStep f s = .next (s.txMoved.txComplete f) := by
    simp [txStep, txGo, txMove_written hms, h.whole, hl]
  rw [h.step_eq_txStep hms hintime, hcomplete, txMoved_written hms]
  rfl

end State.Driving

/-- What is left of a frame is driven through, in as many steps as it has descriptors, and completed in one more (R205 to
R207). -/
theorem State.Driving.run_rest {f : Frame} (h : s.Driving f) {rest : List Pd} (hrest : f.seq.drop f.driven = rest)
    {ms : List TxMove} (hms : s.env.txMoves = List.replicate (rest.length + 1) .go ++ ms)
    (ht : s.waitTimer + dur rest ≤ s.par.waitLast) (k : Nat) :
    Host.Core.run Sys2Proof.core (k + (rest.length + 1)) s =
      Host.Core.run Sys2Proof.core k { s with
        txInflight := none, txSignal := some .done, waitTimer := s.waitTimer + dur rest, lineLow := true
        env := { s.env with txMoves := ms, draws := s.env.draws + rest.length }
        hist := s.hist ++ [.wire f.pin f.seq] } := by
  induction rest generalizing s f with
  | nil =>
    obtain ⟨-, hle, -⟩ := h.inv.flying h.waits f h.inflight
    have hl : f.driven = f.seq.length := hle.antisymm (List.drop_eq_nil_iff.mp hrest)
    exact run_of_step (h.step_completes hms hl ht) k
  | cons d rest ih =>
    have hd : f.seq[f.driven]? = some d := by rw [← List.head?_drop, hrest, List.head?_cons]
    have hdur : dur (d :: rest) = Pd.ticks d + dur rest := rfl
    have hstep := h.step_drives hms hd (by omega)
    have hnext : State.Driving { f with driven := f.driven + 1 } _ :=
      { inv := stepKeepsTheInvariant _ _ h.inv hstep
        silent := h.silent
        waits := h.waits
        unsignalled := h.unsignalled
        inflight := rfl
        whole := h.whole }
    have hrest' : f.seq.drop (f.driven + 1) = rest := by rw [← List.tail_drop, hrest, List.tail_cons]
    have htail := ih hnext hrest' rfl (by rw [hdur, ← Nat.add_assoc] at ht; exact ht)
    refine (run_of_step hstep _).trans (htail.trans ?_)
    rw [List.length_cons, hdur, Nat.add_assoc, Nat.add_assoc, Nat.add_comm 1]

/-- The frame of a SHOW submitted, driven through within the bound, and waited for (R186 to R188, R203 to R206). -/
theorem run_showFrame {ts : List Bool} {ms : List TxMove} {x : Session} (hs : s.Inv) (hin : s.env.inputs = [])
    (hp : s.phase = .showSubmit) (hx : s.slot = some x) (hts : s.env.txAnswers = true :: ts)
    (hms : s.env.txMoves = List.replicate (s.frame.length + 1) .go ++ ms) (ht : dur s.frame ≤ s.par.waitLast) :
    Host.Core.run Sys2Proof.core (s.frame.length + 3) s =
      .next (responded .ok { s with
        txInflight := none, txSignal := some .done, waitTimer := dur s.frame, lineLow := true
        env := { s.env with txAnswers := ts, txMoves := ms, draws := s.env.draws + 1 + s.frame.length }
        hist := s.hist ++ [.txSubmit s.frame true, .wire x.pin s.frame, .txWait .done] }) := by
  have hsubmit := step_submitted hs hin hp hx hts
  have hdriving : State.Driving { pin := x.pin, seq := s.frame, driven := 0, cut := false } _ :=
    { inv := stepKeepsTheInvariant _ _ hs hsubmit
      silent := hin
      waits := rfl
      unsignalled := rfl
      inflight := rfl
      whole := rfl }
  have hdrive := hdriving.run_rest rfl hms (by rw [Nat.zero_add]; exact ht) 1
  rw [Nat.add_comm 1] at hdrive
  have hdone := hdrive.trans (run_of_step (step_waitDone (by exact hin) (by rfl) (by rfl)) 0)
  refine (run_of_step hsubmit _).trans (hdone.trans ?_)
  simp only [Host.Core.run, responded, List.append_assoc, Nat.zero_add]
  rfl

end

end Sys2Proof.Machine
end

section
/-! SHOW run from the command port to its result `OK` (43_show.md R180, R183 to R188, R192): the call accepted and checked, its
first `copy_len` bytes copied and encoded, the frame sent. -/

namespace Sys2Proof.Machine
open Sys2Proof.Claims Sys2Proof.Proofs.WaitBound

section
variable {s : State}

/-! ### The call of SHOW -/

/-- The call of SHOW with one byte sequence (R93, R180). -/
def dataCall (len other : Word) (data : List Byte) : Call :=
  { argc := 1, tag0 := 2, tag1 := 0, arg0 := len, arg1 := other, data := data }

theorem present_dataCall (len other : Word) (data : List Byte) :
    (dataCall len other data).present opcShow = { cmd := 0x0212, arg0 := len, arg1 := other, data := data } := by
  have hheader : (dataCall len other data).header opcShow = 0x0212 := by simp [Call.header, dataCall, opcShow]
  rw [Call.present, hheader]
  rfl

theorem dataLen_dataCall (len other : Word) (data : List Byte) : (dataCall len other data).dataLen = len.toNat := rfl

section
variable {len other : Word} {data : List Byte} (hlen : data.length = len.toNat)
include hlen

theorem decode_dataCall (tp : TimingProfile) :
    decode tp (.cmd { cmd := 0x0212, arg0 := len, arg1 := other, data := data }) =
      .ok (.hostShow (dataCall len other data)) := by
  have hwf : (dataCall len other data).wf = true := by
    rw [Call.wf, Call.dataFits, dataLen_dataCall, ← hlen]
    exact decide_eq_true le_rfl
  have hdecode := decodeCommand_present opcShow (.inr rfl) _ hwf
  rw [present_dataCall] at hdecode
  exact hdecode

theorem callMissing_dataCall : callMissing (dataCall len other data) = 0 := by
  rw [callMissing, dataLen_dataCall, ← hlen]
  exact Nat.sub_self _

theorem callArgs_dataCall : callArgs (dataCall len other data) = [.bytes data] := by
  have hargs : callArgs (dataCall len other data) = [.bytes (data.take len.toNat)] := rfl
  rw [hargs, ← hlen, List.take_length]

end

/-! ### From the port to the copy -/

/-- The idle core `s` with SHOW accepted for these bytes (R251). -/
def State.showAccepted (len other : Word) (data : List Byte) (s : State) : State :=
  { s with
    phase := .showCheck, cmd := 0x0212, arg0 := len, arg1 := other, call := dataCall len other data
    hist := s.hist ++ [.cmd ⟨.hostShow, [.bytes data]⟩]
    env := { s.env with inputs := [] } }

/-- The idle core `s` with that SHOW checked, about to copy its first bytes (R181, R182). -/
def State.showing (len other : Word) (data : List Byte) (s : State) : State :=
  { s.showAccepted len other data with phase := .showCopy }

section
variable {len other : Word} {data : List Byte} (hlen : data.length = len.toNat)
include hlen

/-- The port of the idle core takes the command, which offers all its bytes (R251). -/
theorem step_show_port (hp : s.phase = .idle)
    (hin : s.env.inputs = [.present { cmd := 0x0212, arg0 := len, arg1 := other, data := data }]) :
    step s = .next (s.showAccepted len other data) := by
  have hfull := callMissing_dataCall (other := other) hlen
  rw [step_present_idle hin hp, takeCommand, decode_dataCall hlen]
  simp only [exec, execHostShow, hp, present_dataCall, State.dataDrawn, hfull, if_true,
    callFilled_of_none hfull, callCommand, callArgs_dataCall hlen, State.nextInput, hin]
  rfl

/-- One byte sequence and a live session pass the check (R181, R182). -/
theorem step_show_check {x : Session} (hx : s.slot = some x) :
    step (s.showAccepted len other data) = .next (s.showing len other data) := by
  have hlive : (s.showAccepted len other data).live = true := congrArg Option.isSome hx
  have hpass : showError (callArgs (dataCall len other data)) (s.showAccepted len other data).live = none := by
    rw [callArgs_dataCall hlen, hlive]
    rfl
  rw [step_of_silent (p := .showCheck) rfl rfl nofun rfl, exec_hostShow_check _ rfl]
  exact congrArg (fun e => Host.Outcome.next (Option.elim e _ _)) hpass

theorem showData_showing : (s.showing len other data).showData = data := by
  have hdata : (s.showing len other data).showData = data.take len.toNat := rfl
  rw [hdata, ← hlen, List.take_length]

section
variable {x : Session} (hx : s.slot = some x) {c : Nat} (hc : c = min data.length (3 * x.ledCount))
include hx hc

theorem copyLen_showing : (s.showing len other data).copyLen = c := by
  rw [copyLen_of_slot (s := s.showing len other data) hx, showData_showing hlen, hc]

theorem txCount_showing : (s.showing len other data).txCount = 8 * c := by
  rw [State.txCount, copyLen_showing hlen hx hc]

/-- The frame of that SHOW encodes the first `copy_len` bytes (R183, R185). -/
theorem frame_showing : (s.showing len other data).frame = encSeq s.par.tp (data.take c) := by
  rw [State.frame, showData_showing hlen, copyLen_showing hlen hx hc]
  rfl

end

end

/-- A SHOW that has passed its check on a live session meets the invariant (R182). -/
theorem State.Inv.showing {len other : Word} {data : List Byte} {x : Session} (hs : s.Inv) (hp : s.phase = .idle)
    (hx : s.slot = some x) : (s.showing len other data).Inv := by
  have hq := hs.settled (by rw [hp]; rfl)
  exact State.Settled.inv { hq with } rfl nofun (fun _ => congrArg Option.isSome hx) nofun nofun nofun

/-! ### The buffers -/

/-- BUF.COPY and BUF.FILL leave the first `copy_len` bytes in `PX`, their encoding in `PL`, and every other cell as it was
(R147, R148, R184, R185, R192). -/
theorem run_showBuffers {x : Session} (hs : s.Inv) (hin : s.env.inputs = []) (hp : s.phase = .showCopy)
    (hx : s.slot = some x) :
    ∃ y : Session, ∃ t : State, t = { s with phase := .showSubmit, slot := some y } ∧
      y.pin = x.pin ∧ y.ledCount = x.ledCount ∧ t.Inv ∧
      (∀ k, Host.Core.run Sys2Proof.core (k + 2) s = Host.Core.run Sys2Proof.core k t) ∧
      (∀ i, t.pxAt i = if i < s.copyLen then s.showData[i]? else s.pxAt i) ∧
      ∀ j, t.plAt j = if j < s.txCount then s.frame[j]? else s.plAt j := by
  obtain ⟨-, hcopies⟩ := bufCopyWritesThePrefix
  obtain ⟨-, hfills⟩ := bufFillEncodesThePrefix
  obtain ⟨px, t₁, hcopy, rfl, -, hpx⟩ := hcopies s x hx (hs.session x hx).pxForm
  obtain ⟨pl, t, hfill, rfl, hpl⟩ := hfills { s with phase := .showEncode, slot := some { x with px := px } } _ rfl
  have hstep₁ := (step_of_silent hin hp nofun (by rw [coreFetch_eq, hp])).trans hcopy
  have hinv₁ := stepKeepsTheInvariant _ _ hs hstep₁
  have hstep := (step_of_silent (p := .showEncode) (by exact hin) rfl nofun (by rfl)).trans hfill
  have hinv := stepKeepsTheInvariant _ _ hinv₁ hstep
  refine ⟨{ x with px := px, pl := pl }, _, rfl, rfl, rfl, hinv,
    fun k => (run_of_step hstep₁ _).trans (run_of_step hstep k), fun i => ?_, fun j => ?_⟩
  · rw [copyLen_of_slot hx, ← hpx i]
    exact pxAt_setPl (g := fun _ => pl) rfl i
  · split_ifs with hj
    · have hfilled := hinv.filled rfl j (by rw [txCount_setSession hx (by rfl)]; exact hj)
      rw [frame_setSession hx (by rfl)] at hfilled
      exact hfilled
    · have hbeyond : ¬ j < 8 * min s.showData.length (3 * x.ledCount) := by rwa [← copyLen_of_slot hx]
      exact ((hpl j).trans (if_neg hbeyond)).trans (plAt_setPx (g := fun _ => px) (by rw [hx]; rfl) j)

/-- Settles O52: the command accepted and checked, the two buffers written, the frame sent. -/
theorem showRunsToOk : Obligations.ShowRunsToOk := by
  unfold Obligations.ShowRunsToOk
  intro s x lenWord other data ts ms c hs hp hx hin hlen hc hts hms hdur
  have hlength : (encSeq s.par.tp (data.take c)).length = 8 * c := by
    rw [encSeq_length, List.length_take_of_le (by omega)]
  obtain ⟨y, t, ht, hpin, hleds, hinv, hbuffers, hpx, hpl⟩ :=
    run_showBuffers (hs.showing (len := lenWord) (other := other) (data := data) hp hx) rfl rfl hx
  rw [showData_showing hlen, copyLen_showing hlen hx hc] at hpx
  rw [txCount_showing hlen hx hc, frame_showing hlen hx hc] at hpl
  have hframe : t.frame = encSeq s.par.tp (data.take c) := by
    rw [ht, frame_setSession (by exact hx) hleds, frame_showing hlen hx hc]
  have hfits : dur t.frame ≤ t.par.waitLast := by
    obtain ⟨-, hbound⟩ := waitBoundIsExact s.par hs.params (dur (encSeq s.par.tp (data.take c)))
    rw [hframe, ht]
    exact hbound.mpr hdur
  have hmoves : t.env.txMoves = List.replicate (t.frame.length + 1) .go ++ ms := by
    rw [hframe, hlength, ht]
    exact hms
  have hsent := run_showFrame hinv (by rw [ht]; rfl) (by rw [ht]) (by rw [ht]) (by rw [ht]; exact hts) hmoves hfits
  rw [hframe, hlength] at hsent
  have hrun := (run_of_step (step_show_port hlen hp hin) _).trans <|
    (run_of_step (step_show_check hlen hx) _).trans <| (hbuffers _).trans hsent
  refine ⟨_, hrun, rfl, rfl, rfl, ?_, ?_, hpx, hpl, ?_⟩
  · rw [ht]
    rfl
  · rw [ht, ← hpin, ← hleds]
    rfl
  · rw [ht, ← hpin]
    simp only [responded, State.showing, State.showAccepted, List.append_assoc]
    rfl

end

end Sys2Proof.Machine
end

section
/-! The waveform of a sequence (44_tx_boundary.md R207). -/

namespace Sys2Proof.Machine

theorem waveform_length (seq : List Pd) : (waveform seq).length = 2 * seq.length := by
  induction seq with
  | nil => rfl
  | cons d seq ih =>
    simp only [waveform, List.length_cons, ih]
    omega

/-- The intervals of the waveform follow one another, so the line is busy for the duration of the sequence (R128). -/
theorem waveform_sum_eq_dur (seq : List Pd) : ((waveform seq).map Prod.snd).sum = dur seq := by
  induction seq with
  | nil => rfl
  | cons d seq ih =>
    simp only [waveform, dur, Pd.ticks, List.map_cons, List.sum_cons, ih]
    omega

theorem waveform_getElem? {seq : List Pd} {j : Nat} {d : Pd} (h : seq[j]? = some d) :
    (waveform seq)[2 * j]? = some (.high, d.high.toNat) ∧ (waveform seq)[2 * j + 1]? = some (.low, d.low.toNat) := by
  induction seq generalizing j with
  | nil => cases h
  | cons d' seq ih =>
    cases j with
    | zero =>
      cases h
      exact ⟨rfl, rfl⟩
    | succ j => exact ih h

/-- Settles O10, by induction on the sequence. -/
theorem waveformOfFrame : Obligations.WaveformOfFrame := by
  unfold Obligations.WaveformOfFrame
  exact fun seq => ⟨waveform_length seq, waveform_sum_eq_dur seq, fun _ _ => waveform_getElem?⟩

end Sys2Proof.Machine
end

section
/-! What the four requests of TX answer in every state (44_tx_boundary.md R201 to R204, 60_exceptions.md R232 to R236), over the
equation of each. -/

namespace Sys2Proof.Machine
open Sys2Proof.Claims

section
variable {s : State}

/-! ### The oracle -/

theorem answers_txAnswer (s : State) : answers s.env.txAnswers s.txAnswer := fun _ _ h => txAnswer_written h

theorem txAnswered_inputs (s : State) : s.txAnswered.env.inputs = s.env.inputs := by
  obtain ⟨e, he, hs⟩ := txAnswered_env s
  rw [hs, ← he]

/-! ### The requests of INITIALIZE -/

/-- Settles O17: the record asked for is the one of the session's pin. -/
theorem txConfigureProgramsThePin : Obligations.TxConfigureProgramsThePin := by
  unfold Obligations.TxConfigureProgramsThePin
  intro s x hx
  exact ⟨s.txAnswer, s.txAnswered.drawn.env, answers_txAnswer s, txAnswered_inputs s, exec_txConfigure hx⟩

/-- Settles O18: TX.INSTALL looks at the oracle's answer alone. -/
theorem txInstallEndsInitialize : Obligations.TxInstallEndsInitialize := by
  unfold Obligations.TxInstallEndsInitialize
  intro s
  exact ⟨s.txAnswer, s.txAnswered.env, answers_txAnswer s, txAnswered_inputs s, exec_txInstall s⟩

/-! ### The submission -/

theorem txPin_of_txCfg {c : TxCfg} (h : s.txCfg = some c) : s.txPin = c.pin := by simp only [State.txPin, h]

theorem submission_length (s : State) : s.submission.length = 8 * s.copyLen := plReadN_length s 0 _

/-- A cell to be submitted that holds a value goes out as that value (R203). -/
theorem submission_getElem? {j : Nat} {d : Pd} (hj : j < 8 * s.copyLen) (hd : s.plAt j = some d) :
    s.submission[j]? = some d := by
  rw [State.submission, plReadN_getElem? s 0 s.txCount j hj, Nat.zero_add, State.plRead, hd, Option.getD_some]

/-- Settles O21: the sequence is read off the pulse buffer cell by cell. -/
theorem txSubmitSendsThePrefix : Obligations.TxSubmitSendsThePrefix := by
  unfold Obligations.TxSubmitSendsThePrefix
  intro s
  exact ⟨s.txAnswer, s.txAnswered.drawn.env, s.submission, s.txPin, answers_txAnswer s, txAnswered_inputs s,
    fun _ => txPin_of_txCfg, submission_length s, fun _ _ => submission_getElem?, exec_txSubmit s⟩

/-! ### The wait -/

theorem exec_txWait_err (h : s.txSignal = some .err) : exec .txWait s = .next (failed .txWait (.txWait .err) s) := by
  simp only [exec, execTxWait, h, State.raiseFatal, State.goto, State.emit, failed, List.append_assoc, List.cons_append,
    List.nil_append]

theorem exec_txWait_timeout (h : s.txSignal = none) (ht : s.par.waitTicks ≤ s.waitTimer) :
    exec .txWait s = .next (failed .txWaitTimeout (.txWait .timeout) { s with lineLow := false }) := by
  simp only [exec, execTxWait, h, ht, if_true, State.raiseFatal, State.goto, State.emit, failed, List.append_assoc,
    List.cons_append, List.nil_append]

theorem exec_txWait_blocked (h : s.txSignal = none) (ht : s.waitTimer < s.par.waitTicks) :
    exec .txWait s = .next s := by
  simp only [exec, execTxWait, h, if_neg (Nat.not_le.mpr ht)]

/-- Settles O22: one equation for each way the wait can stand. -/
theorem txWaitOutcomes : Obligations.TxWaitOutcomes := by
  unfold Obligations.TxWaitOutcomes
  exact fun _ => ⟨exec_txWait_done, exec_txWait_err, exec_txWait_timeout, exec_txWait_blocked⟩

end

end Sys2Proof.Machine
end

section
/-! The moves of TX with a frame in flight (44_tx_boundary.md R204 to R207): what the step is for each move written down, and why
a frame in which TX has stopped is never completed. -/

namespace Sys2Proof.Machine
open Sys2Proof.Claims

section
variable {s t : State} {f : Frame}

/-! ### One move -/

/-- The host is silent, the frame `f` is in flight with no signal given, and TX's next move is `m`, then `ms` (R205). -/
structure State.Moving (f : Frame) (m : TxMove) (ms : List TxMove) (s : State) : Prop where
  silent : s.env.inputs = []
  waits : s.phase = .showWait
  unsignalled : s.txSignal = none
  inflight : s.txInflight = some f
  move : s.env.txMoves = m :: ms

/-- Before the first descriptor and after the last a frame in which TX has not stopped is not open (R207). -/
theorem Frame.opened_eq_false (hc : f.cut = false) (h : f.driven = 0 ∨ f.seq.length ≤ f.driven) : f.opened = false := by
  simp only [Frame.opened, hc, Bool.false_or, decide_eq_false_iff_not]
  omega

theorem Frame.opened_of_inside (h0 : 0 < f.driven) (hl : f.driven < f.seq.length) : f.opened = true := by
  simp [Frame.opened, h0, hl]

theorem Frame.opened_of_cut (hc : f.cut = true) : f.opened = true := by simp [Frame.opened, hc]

namespace State.Moving
variable {m : TxMove} {ms : List TxMove} (h : s.Moving f m ms)
include h

theorem txFrame_eq : s.txFrame = if s.txInTime f m then some f else none := by
  simp only [State.txFrame, h.waits, h.unsignalled, h.inflight, txMove_written h.move]

/-- A move in time is the step (R204). -/
theorem step_eq_txStep (ht : s.txInTime f m = true) : step s = txStep f s := by
  rw [step_of_quiet_tx (.inl h.silent) (h.txFrame_eq.trans (if_pos ht)), nextInput_of_silent h.silent]

/-- At the bound a move too late leaves the step to the core, which times out (R204, R236). -/
theorem step_times_out (hlate : s.txInTime f m = false) (ht : s.par.waitTicks ≤ s.waitTimer) :
    step s = .next (failed .txWaitTimeout (.txWait .timeout) { s with lineLow := false }) := by
  have hframe : s.txFrame = none := by rw [h.txFrame_eq, hlate]; rfl
  rw [step_of_quiet_core (.inl h.silent) hframe (by rw [coreFetch_eq, h.waits]), nextInput_of_silent h.silent,
    exec_txWait_timeout h.unsignalled ht]

/-- TX fails (R205 b). -/
theorem step_fails (hm : m = .fail) (ht : s.waitTimer ≤ s.par.waitLast) :
    step s = .next { s with
      txInflight := none, txSignal := some .err, lineLow := false, env := { s.env with txMoves := ms } } := by
  subst hm
  rw [h.step_eq_txStep (decide_eq_true ht)]
  simp only [txStep, txMove_written h.move, txMoved_written h.move, State.txFail]

/-- TX is complete (R205 a). -/
theorem step_completes (hm : m = .go) (hc : f.cut = false) (hl : f.seq.length ≤ f.driven)
    (ht : s.waitTimer ≤ s.par.waitLast) :
    step s = .next { s with
      txInflight := none, txSignal := some .done, lineLow := true, hist := s.hist ++ [.wire f.pin f.seq]
      env := { s.env with txMoves := ms } } := by
  subst hm
  have hintime : s.txInTime f .go = true := by simp [State.txInTime, hc, hl, ht]
  have hcomplete : txStep f s = .next (s.txMoved.txComplete f) := by
    simp [txStep, txGo, txMove_written h.move, hc, hl]
  rw [h.step_eq_txStep hintime, hcomplete, txMoved_written h.move]
  rfl

/-- TX lets time pass, as a pause or because it has stopped inside the frame (R205 c). -/
theorem step_pauses {k : Nat} (hm : m = .pause k ∨ f.cut = true ∧ m = .go ∧ k = 0) (ht : s.waitTimer < s.par.waitTicks) :
    step s = .next { s with
      txInflight := some { f with cut := f.opened }, lineLow := s.lineLow && !f.opened
      waitTimer := min (s.waitTimer + (k + 1)) s.par.waitTicks, env := { s.env with txMoves := ms } } := by
  have hintime : s.txInTime f m = true := by
    rcases hm with rfl | ⟨hc, rfl, -⟩
    · exact decide_eq_true ht
    · simp [State.txInTime, hc, ht]
  have hpause : txStep f s = .next (s.txMoved.txPause f k) := by
    rcases hm with rfl | ⟨hc, rfl, rfl⟩
    · simp only [txStep, txMove_written h.move]
    · simp only [txStep, txGo, txMove_written h.move, hc, if_true]
  rw [h.step_eq_txStep hintime, hpause, txMoved_written h.move]
  rfl

/-- Outside its frame TX only delays. -/
theorem step_delays {k : Nat} (hm : m = .pause k) (ho : f.opened = false) (hc : f.cut = false)
    (ht : s.waitTimer < s.par.waitTicks) :
    step s = .next { s with
      waitTimer := min (s.waitTimer + (k + 1)) s.par.waitTicks, env := { s.env with txMoves := ms } } := by
  have hf : { f with cut := f.opened } = f := by rw [ho, ← hc]
  rw [h.step_pauses (.inl hm) ht, hf, ho, ← h.inflight, Bool.not_false, Bool.and_true]

/-- Inside its frame TX has stopped, the line with it (R207). -/
theorem step_stops {k : Nat} (hm : m = .pause k ∨ f.cut = true ∧ m = .go ∧ k = 0) (ho : f.opened = true)
    (ht : s.waitTimer < s.par.waitTicks) :
    step s = .next { s with
      txInflight := some { f with cut := true }, lineLow := false
      waitTimer := min (s.waitTimer + (k + 1)) s.par.waitTicks, env := { s.env with txMoves := ms } } := by
  rw [h.step_pauses hm ht, ho, Bool.not_true, Bool.and_false]

/-- A descriptor that would end past the bound ends the wait at the bound (R205 c, R246). -/
theorem step_overruns {d : Pd} (hm : m = .go) (hc : f.cut = false) (hl : f.driven < f.seq.length)
    (ht : s.waitTimer < s.par.waitTicks) (hd : s.plAt f.driven = some d)
    (hlong : s.par.waitLast < s.waitTimer + Pd.ticks d) :
    step s = .next { s with
      txInflight := some { f with cut := true }, lineLow := false, waitTimer := s.par.waitTicks
      env := { s.env with txMoves := ms, draws := s.env.draws + 1 } } := by
  subst hm
  have hintime : s.txInTime f .go = true := by simp [State.txInTime, hl, ht]
  have hread : s.plRead f.driven = d := by rw [State.plRead, hd, Option.getD_some]
  have hoverrun : txStep f s = .next (s.txMoved.drawn.txOverrun f) := by
    simp [txStep, txGo, txMove_written h.move, hc, hl, hread, hlong]
  rw [h.step_eq_txStep hintime, hoverrun, txMoved_written h.move]
  rfl

/-- The moves that come too late once the bound has passed (R204, R241). -/
theorem txInTime_eq_false (ht : s.par.waitTicks ≤ s.waitTimer)
    (hm : (∃ k, m = .pause k) ∨ (m = .go ∧ f.driven < f.seq.length) ∨ s.par.waitLast < s.waitTimer) :
    s.txInTime f m = false := by
  cases m with
  | pause k => exact decide_eq_false (Nat.not_lt.mpr ht)
  | fail => exact decide_eq_false (by simpa using hm)
  | go =>
    simp only [State.txInTime]
    split_ifs with hleft
    · exact decide_eq_false (Nat.not_lt.mpr ht)
    · have hlast : s.par.waitLast < s.waitTimer := by simpa [not_or.mp hleft] using hm
      exact decide_eq_false (Nat.not_le.mpr hlast)

end State.Moving

/-- Settles O28: one lemma for each move, the last for the core's turn once the bound has passed. -/
theorem transmitterMoves : Obligations.TransmitterMoves := by
  unfold Obligations.TransmitterMoves
  intro s f m ms hin hp hsig hf hms
  have h : s.Moving f m ms := ⟨hin, hp, hsig, hf, hms⟩
  refine ⟨h.step_fails, h.step_completes, ?_, ?_, ?_, ?_, ?_⟩
  · intro k hm hc hout ht
    exact h.step_delays hm (Frame.opened_eq_false hc hout) hc ht
  · intro k hm h0 hl ht
    exact h.step_stops (.inl hm) (Frame.opened_of_inside h0 hl) ht
  · intro k hc hm ht
    have hf' : some { f with cut := true } = s.txInflight := by rw [hf, ← hc]
    rw [h.step_stops (hm.symm.imp_right fun hgo => ⟨hc, hgo⟩) (Frame.opened_of_cut hc) ht, hf']
  · intro d hm hc hl ht hd hlong
    exact ⟨_, h.step_overruns hm hc hl ht hd hlong⟩
  · intro ht hm
    exact h.step_times_out (h.txInTime_eq_false ht hm) ht

/-! ### A frame with a gap -/

/-- TX has stopped inside the frame `f` in flight, and no signal is given (R205 c, R207). -/
structure State.Stopped (f : Frame) (s : State) : Prop where
  waits : s.phase = .showWait
  unsignalled : s.txSignal = none
  inflight : s.txInflight = some f
  cut : f.cut = true

theorem State.Stopped.beside (h : s.Stopped f) (hb : s.Beside t) : t.Stopped f :=
  ⟨hb.phase_eq.trans h.waits, hb.txSignal_eq.trans h.unsignalled, hb.txInflight_eq.trans h.inflight, h.cut⟩

/-- From `s` to `t` the frame in flight is not sent: SHOW has not ended, TX has not signalled `done`, no `Wire` is recorded, and
a frame still in flight is one in which TX has stopped. -/
def State.LeavesUnsent (s t : State) : Prop :=
  t.phase ≠ .idle ∧ t.txSignal ≠ some .done ∧ (∀ g, t.txInflight = some g → g.cut = true) ∧
    ∃ h, t.hist = s.hist ++ h ∧ ∀ e ∈ h, ∀ pin seq, e ≠ .wire pin seq

theorem State.LeavesUnsent.after_beside {s' : State} (hb : s.Beside s') (h : s'.LeavesUnsent t) : s.LeavesUnsent t := by
  obtain ⟨_, _, _, _, rfl⟩ := hb
  exact h

/-- A frame that is still stopped has not been sent. -/
theorem State.Stopped.leavesUnsent (h : t.Stopped f) (hhist : t.hist = s.hist) : s.LeavesUnsent t := by
  refine ⟨by simp [h.waits], by simp [h.unsignalled], fun g hg => ?_, [], by simp [hhist], by simp⟩
  cases h.inflight.symm.trans hg
  exact h.cut

/-- TX, stopped inside its frame, fails or lets time pass (R205 b and c). -/
theorem TxDoes.leavesUnsent (h : TxDoes f s t) (hs : s.Stopped f) : s.LeavesUnsent t := by
  cases h with
  | drives _ hwhole | overruns hwhole | completes hwhole => simp [hs.cut] at hwhole
  | fails => exact ⟨by simp [hs.waits], by simp, nofun, [], by simp, by simp⟩
  | pauses k =>
    exact State.Stopped.leavesUnsent ⟨hs.waits, hs.unsignalled, rfl, Frame.opened_of_cut hs.cut⟩ rfl

/-- The core, with no signal given, is blocked or times out (R204). -/
theorem CoreDoes.leavesUnsent (h : CoreDoes s t) (hs : s.Stopped f) : s.LeavesUnsent t := by
  cases h with
  | waitBlocked => exact hs.leavesUnsent rfl
  | waitTimeout =>
    have hcut : ∀ g, s.txInflight = some g → g.cut = true := by simp [hs.inflight, hs.cut]
    exact ⟨by simp, by simp [hs.unsignalled], hcut, [.txWait .timeout, .fatal .txWaitTimeout], rfl, by simp⟩
  | waitDone _ hq | waitErr _ hq => simp [hs.unsignalled] at hq
  | _ hq => simp [hs.waits] at hq

/-- Settles O29: neither the host nor the core nor TX sends a frame in which TX has stopped. -/
theorem frameWithAGapIsNeverSent : Obligations.FrameWithAGapIsNeverSent := by
  unfold Obligations.FrameWithAGapIsNeverSent
  intro s t f hs h hr hp hf hc
  have hstop : s.Stopped f := ⟨hp, by simpa [hf] using hs.waiting hp, hf, hc⟩
  rcases step_cases h (not_rst_of_not_resetNow hr) with
    hb | ⟨hi, -⟩ | ⟨s', hb, hd⟩ | ⟨s', f', hb, -, -, hf', hd⟩
  · exact (hstop.beside hb).leavesUnsent hb.hist_eq
  · simp [hp] at hi
  · exact State.LeavesUnsent.after_beside hb (hd.leavesUnsent (hstop.beside hb))
  · cases hf.symm.trans hf'
    exact State.LeavesUnsent.after_beside hb (hd.leavesUnsent (hstop.beside hb))

end

end Sys2Proof.Machine
end

section
/-! TX is programmed as a plain transmitter only (44_tx_boundary.md R213, 30_encoding.md R103): TX.CONFIGURE alone programs it,
and always with the record of R103. -/

namespace Sys2Proof.Machine
open Sys2Proof.Claims

section
variable {s t : State}

/-- The record of R103 is a plain transmitter's, whatever the pin. -/
theorem plainConfig_forPin (pin : Int) : plainConfig (.forPin pin) := ⟨rfl, rfl, rfl, rfl⟩

theorem plainTx_of_reset (p : Params) (e : Env) : PlainTx { State.reset with par := p, env := e } := ⟨nofun, nofun⟩

/-- Further events that are plain, and a plain record in force, keep TX plain. -/
theorem plainTx_append {h : List Event} (hs : PlainTx s) (hhist : t.hist = s.hist ++ h)
    (hplain : ∀ c ok, .txConfigure c ok ∈ h → plainConfig c) (hcfg : ∀ c, t.txCfg = some c → plainConfig c) :
    PlainTx t := by
  obtain ⟨hpast, -⟩ := hs
  refine ⟨fun c ok hmem => ?_, hcfg⟩
  rw [hhist, List.mem_append] at hmem
  exact hmem.elim (hpast c ok) (hplain c ok)

/-- Events that are no configuration, with the record in force as it was, keep TX plain. -/
theorem plainTx_append_others {h : List Event} (hs : PlainTx s) (hhist : t.hist = s.hist ++ h)
    (hothers : ∀ c ok, .txConfigure c ok ∉ h) (hcfg : t.txCfg = s.txCfg) : PlainTx t :=
  plainTx_append hs hhist (fun c ok hmem => absurd hmem (hothers c ok)) (hcfg ▸ hs.2)

theorem State.Beside.plainTx (hb : s.Beside t) (hs : PlainTx s) : PlainTx t := by
  obtain ⟨_, _, _, _, rfl⟩ := hb
  exact hs

theorem State.Accepts.plainTx (ha : s.Accepts t) (hs : PlainTx s) : PlainTx t := by
  obtain ⟨s', _, _, e, _, hb, -, rfl⟩ := ha
  exact plainTx_append_others (hb.plainTx hs) (h := [.cmd e]) rfl (by simp) rfl

theorem TxDoes.plainTx {f : Frame} (h : TxDoes f s t) (hs : PlainTx s) : PlainTx t := by
  cases h with
  | completes => exact plainTx_append_others hs (h := [.wire f.pin f.seq]) rfl (by simp) rfl
  | _ => exact plainTx_append_others hs (h := []) (by simp) (by simp) (by simp)

/-- Of the operations of the core TX.CONFIGURE alone asks for a record, the one of R103. -/
theorem CoreDoes.plainTx (h : CoreDoes s t) (hs : PlainTx s) : PlainTx t := by
  cases h with
  | configured =>
    exact plainTx_append hs (h := [.txConfigure (.forPin s.pin) true]) rfl (by simp [plainConfig_forPin])
      (by simp [plainConfig_forPin])
  | configureFails =>
    exact plainTx_append hs (h := [.txConfigure (.forPin s.pin) false, .fatal .txConfigure]) rfl
      (by simp [plainConfig_forPin]) hs.2
  | initPasses | releasesNone | showPasses | copies | fills | waitBlocked => exact hs
  | _ => exact plainTx_append_others hs rfl (by simp) rfl

/-- Settles O42: a reset clears what was asked and programmed, and of all other steps TX.CONFIGURE alone adds to it. -/
theorem txIsAlwaysAPlainTransmitter : Obligations.TxIsAlwaysAPlainTransmitter := by
  unfold Obligations.TxIsAlwaysAPlainTransmitter
  intro s t hs h
  by_cases hr : resetNow s
  · rw [eq_rst_of_resetNow hr h]
    exact plainTx_of_reset _ _
  · rcases step_cases h (not_rst_of_not_resetNow hr) with
      hb | ⟨-, ha⟩ | ⟨s', hb, hd⟩ | ⟨s', f, hb, -, -, -, hd⟩
    · exact hb.plainTx hs
    · exact ha.plainTx hs
    · exact hd.plainTx (hb.plainTx hs)
    · exact hd.plainTx (hb.plainTx hs)

end

end Sys2Proof.Machine
end

section
/-! Commands at the port and in the held list (60_exceptions.md R251, 70_reset_and_hazards.md R271): acceptance in `IDLE`, by
presentation or out of the list, the hold elsewhere, and a command that its check rejects (R222 to R225, R237). -/

namespace Sys2Proof.Machine
open Sys2Proof.Claims

section
variable {s : State} {p : Presented}

/-! ### The port -/

theorem takeCommand_ok {i : Instr} (h : decodeCommand p = .ok i) : takeCommand p s = exec i s := by
  simp only [takeCommand, decode, h]

theorem takeCommand_error {why : Reject} (h : decodeCommand p = .error why) :
    takeCommand p s = .refused (.reservedCommand why) := by
  simp only [takeCommand, decode, h]

/-! ### Acceptance -/

/-- Settles O11: the two commands fill the same `DATA` with the same free bytes. -/
theorem commandsAreAcceptedInIdle : Obligations.CommandsAreAcceptedInIdle := by
  unfold Obligations.CommandsAreAcceptedInIdle
  intro c s hp
  obtain ⟨bs, hlen, hfilled⟩ := callFilled_bytes s.env.draws c
  obtain ⟨k, hk, hdrawn⟩ := dataDrawn_env c s
  refine ⟨bs, k, hlen, fun hbs => hk (by rw [← hlen, hbs, List.length_nil]), ?_, ?_⟩
  · simp only [exec, execHostInitialize, hp, hfilled, hdrawn]
    rfl
  · simp only [exec, execHostShow, hp, hfilled, hdrawn]
    rfl

/-- What decodes is the call with the bytes offered, under the header it was presented with (R93, R95, R96). -/
theorem decodeCommand_offered {i : Instr} (h : decodeCommand p = .ok i) :
    (p.cmd.toNat % 16 = 1 ∧ (offered p).header 1 = p.cmd ∧ i = .hostInitialize (offered p)) ∨
    (p.cmd.toNat % 16 = 2 ∧ (offered p).header 2 = p.cmd ∧ i = .hostShow (offered p)) := by
  obtain ⟨hupper, -, hop⟩ := decodeCommand_ok h
  have hheader := header_of p hupper (offered p) rfl rfl rfl
  have hdigit (k : Nibble) (hk : p.cmd.extractLsb' 0 4 = k) : p.cmd.toNat % 16 = k.toNat := by
    rw [extract_eq, pow_zero, Nat.div_one] at hk
    exact hk
  obtain ⟨hopc, hi⟩ | ⟨hopc, hi⟩ := hop <;> rw [hopc] at hheader
  · exact .inl ⟨hdigit _ hopc, hheader, hi⟩
  · exact .inr ⟨hdigit _ hopc, hheader, hi⟩

/-- `s` with the command presented as `p` accepted for its check `k`: `bs` are the bytes announced and not offered, `rest` the
host's further inputs, `n` the next free draw (R251). -/
def State.acceptedFor (k : Phase) (op : Operation) (p : Presented) (bs : List Byte) (rest : List HostInput) (n : Nat)
    (s : State) : State :=
  { s with
    phase := k, call := withBytes (offered p) bs
    cmd := p.cmd, arg0 := p.arg0, arg1 := p.arg1
    hist := s.hist ++ [.cmd ⟨op, callArgs (withBytes (offered p) bs)⟩]
    env := { s.env with inputs := rest, draws := n } }

/-- A command presented in `IDLE` that decodes is accepted (R251). -/
theorem step_present_accepts {i : Instr} {rest : List HostInput} (hin : s.env.inputs = .present p :: rest)
    (hp : s.phase = .idle) (hi : decodeCommand p = .ok i) :
    ∃ bs n, bs.length = (offered p).dataLen - (offered p).data.length ∧ (bs = [] → n = s.env.draws) ∧
      ((i = .hostInitialize (offered p) ∧ p.cmd.toNat % 16 = 1 ∧
          step s = .next (s.acceptedFor .initCheck .hostInitialize p bs rest n)) ∨
        (i = .hostShow (offered p) ∧ p.cmd.toNat % 16 = 2 ∧
          step s = .next (s.acceptedFor .showCheck .hostShow p bs rest n))) := by
  obtain ⟨bs, n, hlen, hn, hinit, hshow⟩ := commandsAreAcceptedInIdle (offered p) s.nextInput hp
  have hstep : step s = exec i s.nextInput := (step_present_idle hin hp).trans (takeCommand_ok hi)
  refine ⟨bs, n, hlen, hn, ?_⟩
  obtain ⟨hdigit, hheader, rfl⟩ | ⟨hdigit, hheader, rfl⟩ := decodeCommand_offered hi
  · refine .inl ⟨rfl, hdigit, ?_⟩
    rw [hstep, hinit, hheader, State.nextInput_env, hin]
    rfl
  · refine .inr ⟨rfl, hdigit, ?_⟩
    rw [hstep, hshow, hheader, State.nextInput_env, hin]
    rfl

/-- Settles O26. -/
theorem presentedCommandIsAcceptedOrHeld : Obligations.PresentedCommandIsAcceptedOrHeld := by
  unfold Obligations.PresentedCommandIsAcceptedOrHeld
  intro s p rest hin
  refine ⟨fun hp => ?_, fun hp i hi => ?_⟩
  · have hheld : step s = .next (s.nextInput.hold p) := (step_present hin).trans (if_neg hp)
    rw [hheld, State.nextInput, hin]
    rfl
  · obtain ⟨bs, n, hlen, hn, ⟨-, hdigit, hstep⟩ | ⟨-, hdigit, hstep⟩⟩ := step_present_accepts hin hp hi
    · exact ⟨_, _, bs, n, hlen, hn, .inl ⟨rfl, rfl, hdigit⟩, hstep⟩
    · exact ⟨_, _, bs, n, hlen, hn, .inr ⟨rfl, rfl, hdigit⟩, hstep⟩

/-! ### A held command -/

/-- The choice among the held commands names one of them (R251). -/
theorem waiting_pickIndex (h : s.waiting ≠ []) : ∃ p, s.waiting[s.pickIndex]? = some p :=
  ⟨_, List.getElem?_eq_getElem (Nat.mod_lt _ (List.length_pos_iff.mpr h))⟩

/-- A choice written down is the choice made, as an index of the list (R251, R271). -/
theorem pickIndex_written {j : Nat} {rest : List Nat} (h : s.env.picks = j :: rest) :
    s.pickIndex = j % s.waiting.length := by simp only [State.pickIndex, h]

/-- Nothing but the list of choices and the counter of free draws moves when a command is chosen. -/
theorem picked_env (s : State) : ∃ e, e.inputs = s.env.inputs ∧ s.picked = { s with env := e } := by
  refine ⟨s.picked.env, ?_, ?_⟩ <;> (unfold State.picked; split <;> rfl)

/-- An idle core that the host leaves alone looks for a held command (R251). -/
theorem step_takes_waiting (hq : hostQuiet s) (hp : s.phase = .idle) : step s = takeWaiting s.nextInput := by
  have hfetch : coreFetch s = none := by rw [coreFetch_eq, hp]
  have htx : s.txFrame = none := txFrame_eq_none (by simp [hp])
  simp [step, State.mover, hostActs_of_quiet hq, htx, coreStep, hfetch, hp]

/-- Settles O27: the index chosen is one of the list's, and the command there is taken from the port. -/
theorem heldCommandIsTakenInIdle : Obligations.HeldCommandIsTakenInIdle := by
  unfold Obligations.HeldCommandIsTakenInIdle
  intro s hq hp hw
  obtain ⟨e, hinputs, hpicked⟩ := picked_env s.nextInput
  obtain ⟨p, hget⟩ := waiting_pickIndex hw
  have hstep : step s = takeCommand p { s with waiting := s.waiting.eraseIdx s.pickIndex, env := e } := by
    have hget' : s.nextInput.waiting[s.nextInput.pickIndex]? = some p := hget
    rw [step_takes_waiting hq hp, takeWaiting, hget', hpicked]
    rfl
  exact ⟨s.pickIndex, p, e, hget, hinputs, fun _ _ => pickIndex_written, hstep,
    fun _ hi => hstep.trans (takeCommand_ok hi), fun _ hwhy => hstep.trans (takeCommand_error hwhy)⟩

/-! ### A rejected command -/

/-- The command in progress that fails its check responds and touches nothing else (R161, R162, R223). -/
theorem step_initialize_rejected {code : ResultCode} (hin : s.env.inputs = []) (hp : s.phase = .initCheck)
    (h : initializeError (callArgs s.call) = some code) : step s = .next (responded code s) := by
  rw [step_of_silent hin hp nofun (by rw [coreFetch_eq, hp]), exec_hostInitialize_check _ hp, h]
  rfl

/-- The same of SHOW, its precondition included (R181, R182, R225). -/
theorem step_show_rejected {code : ResultCode} (hin : s.env.inputs = []) (hp : s.phase = .showCheck)
    (h : showError (callArgs s.call) s.live = some code) : step s = .next (responded code s) := by
  rw [step_of_silent hin hp nofun (by rw [coreFetch_eq, hp]), exec_hostShow_check _ hp, h]
  rfl

/-- An acceptance and the result that follows it, as one change of the state. -/
theorem responded_acceptedFor {code : ResultCode} {k : Phase} {op : Operation} {bs : List Byte} {rest : List HostInput}
    {n : Nat} (hp : s.phase = .idle) :
    responded code (s.acceptedFor k op p bs rest n) =
      { s with
        result := some code, call := withBytes (offered p) bs, cmd := p.cmd, arg0 := p.arg0, arg1 := p.arg1
        hist := s.hist ++ [.cmd ⟨op, callArgs (withBytes (offered p) bs)⟩, .result code]
        env := { s.env with inputs := rest, draws := n } } := by
  simp only [responded, State.acceptedFor, List.append_assoc, ← hp]
  rfl

/-- Settles O51: the command is accepted, and its check, which reads no byte of `DATA`, rejects it in the next step. -/
theorem rejectedCommandTouchesNothing : Obligations.RejectedCommandTouchesNothing := by
  unfold Obligations.RejectedCommandTouchesNothing
  rintro s p c op code hp hin (⟨rfl, hi, herr⟩ | ⟨rfl, hi, herr⟩)
  · obtain ⟨bs, n, hlen, -, ⟨hc, -, haccept⟩ | ⟨hc, -, -⟩⟩ := step_present_accepts hin hp hi <;> cases hc
    have hreject := step_initialize_rejected (s := s.acceptedFor .initCheck .hostInitialize p bs [] n) rfl rfl
      ((initializeError_data _ _).trans herr)
    refine ⟨bs, n, hlen, ?_⟩
    rw [run_of_step haccept, run_of_step hreject, responded_acceptedFor hp]
    rfl
  · obtain ⟨bs, n, hlen, -, ⟨hc, -, -⟩ | ⟨hc, -, haccept⟩⟩ := step_present_accepts hin hp hi <;> cases hc
    have hreject := step_show_rejected (s := s.acceptedFor .showCheck .hostShow p bs [] n) rfl rfl
      ((showError_data _ _ _).trans herr)
    refine ⟨bs, n, hlen, ?_⟩
    rw [run_of_step haccept, run_of_step hreject, responded_acceptedFor hp]
    rfl

end

end Sys2Proof.Machine
end

section
/-! How commands end (60_exceptions.md R221, R231, R239, R246): in one result or one fatal cause, never in `OK` past the wait
bound, and after a fatal cause in `FAULT` for good. -/

namespace Sys2Proof.Machine
open Sys2Proof.Claims

section
variable {s t : State}

/-! ### In FAULT -/

/-- In `FAULT` the core has no operation (R239). -/
theorem CoreDoes.phase_ne_fault (h : CoreDoes s t) : s.phase ≠ .fault := by
  cases h with
  | _ hp => simp [hp]

/-- Settles O35: a silent host leaves no agent a step; any other step but a reset is one of the host or the oracles. -/
theorem faultIsForGood : Obligations.FaultIsForGood := by
  unfold Obligations.FaultIsForGood
  intro s hp
  refine ⟨fun hin => ?_, fun t h hr => ?_⟩
  · have hfetch : coreFetch s = none := by rw [coreFetch_eq, hp]
    have htx : s.txFrame = none := txFrame_eq_none (by simp [hp])
    simp [step, State.mover, hostActs_of_quiet (.inl hin), htx, coreStep, hfetch, hp, hin]
  · rcases step_cases h (not_rst_of_not_resetNow hr) with
      hb | ⟨hi, -⟩ | ⟨s', hb, hd⟩ | ⟨s', f, -, hw, -, -, -⟩
    · exact hb
    · simp [hp] at hi
    · exact absurd (hb.phase_eq.trans hp) hd.phase_ne_fault
    · simp [hp] at hw

/-! ### One result or one fatal cause -/

/-- The event ends no command (R46, R221). -/
def Event.endsNothing : Event → Bool
  | .result _ | .fatal _ => false
  | _ => true

theorem Event.endsNothing_ne {e : Event} (h : e.endsNothing = true) : (∀ c, e ≠ .result c) ∧ ∀ c, e ≠ .fatal c := by
  constructor
  · rintro _ rfl
    cases h
  · rintro _ rfl
    cases h

/-- From `s` to `t` the history grows by events that end no command and then by `e`. -/
def State.RecordsLast (e : Event) (s t : State) : Prop :=
  ∃ h, t.hist = s.hist ++ h ∧ h.getLast? = some e ∧ h.dropLast.all Event.endsNothing = true

theorem State.RecordsLast.exists_append {e : Event} (h : State.RecordsLast e s t) :
    ∃ l, t.hist = s.hist ++ l ++ [e] ∧ ∀ e ∈ l, (∀ c, e ≠ .result c) ∧ ∀ c, e ≠ .fatal c := by
  obtain ⟨h, hhist, hlast, hall⟩ := h
  refine ⟨h.dropLast, ?_, fun e he => Event.endsNothing_ne (List.all_eq_true.mp hall e he)⟩
  rw [hhist, List.append_assoc, List.dropLast_append_getLast? e hlast]

/-- How the step from `s` to `t` stands to the end of a command: it ends one with a result, or with a fatal cause, or it ends
none (R221, R231). -/
inductive State.Ends (s t : State) : Prop where
  | result (code : ResultCode) (hs : s.busy = true) (ht : t.phase = .idle) (hr : t.result = some code)
      (hf : t.faultCause = s.faultCause) (hh : State.RecordsLast (.result code) s t)
  | fatal (cause : FatalCause) (hs : s.busy = true) (ht : t.phase = .fault) (hr : t.result = s.result)
      (hf : t.faultCause = some cause) (hh : State.RecordsLast (.fatal cause) s t)
  | nothing (hb : t.busy = s.busy ∨ t.busy = true) (hr : t.result = s.result) (hf : t.faultCause = s.faultCause)
      (hh : ∃ h, t.hist = s.hist ++ h ∧ h.all Event.endsNothing = true)

theorem State.Ends.after_beside {s' : State} (hb : s.Beside s') (h : s'.Ends t) : s.Ends t := by
  obtain ⟨_, _, _, _, rfl⟩ := hb
  cases h with
  | result code hs ht hr hf hh => exact .result code hs ht hr hf hh
  | fatal cause hs ht hr hf hh => exact .fatal cause hs ht hr hf hh
  | nothing hb hr hf hh => exact .nothing hb hr hf hh

/-- A step that leaves the phase and both latches alone and records no end of a command ends nothing. -/
theorem State.Ends.of_eq (hp : t.phase = s.phase) (hr : t.result = s.result) (hf : t.faultCause = s.faultCause)
    {h : List Event} (hh : t.hist = s.hist ++ h) (hall : h.all Event.endsNothing = true) : s.Ends t := by
  have hb : t.busy = s.busy := by rw [State.busy, State.busy, hp]
  exact .nothing (.inl hb) hr hf ⟨h, hh, hall⟩

theorem State.Beside.ends (hb : s.Beside t) : s.Ends t :=
  .after_beside hb (.of_eq rfl rfl rfl (List.append_nil _).symm rfl)

theorem State.Accepts.ends (ha : s.Accepts t) : s.Ends t := by
  obtain ⟨s', _, _, e, k, hb, hk, rfl⟩ := ha
  refine .after_beside hb (.nothing (.inr ?_) rfl rfl ⟨[.cmd e], rfl, rfl⟩)
  rcases hk with rfl | rfl <;> rfl

theorem TxDoes.ends {f : Frame} (h : TxDoes f s t) : s.Ends t := by
  have hp := h.phase_eq
  cases h with
  | completes => exact .of_eq hp rfl rfl (h := [.wire f.pin f.seq]) rfl rfl
  | _ => exact .of_eq hp (by simp) (by simp) (h := []) (by simp) rfl

/-- While the core has an operation to run, a command is in progress (R32). -/
theorem CoreDoes.busy (h : CoreDoes s t) : s.busy = true := by
  cases h with
  | _ hp => simp [State.busy, hp]

/-- The operations that respond, those that raise a fatal cause, and the rest, which lead to the next one. -/
theorem CoreDoes.ends (h : CoreDoes s t) : s.Ends t := by
  have hs := h.busy
  cases h with
  | initFails | showFails | pxRefused | plRefused | installed | waitDone =>
    exact .result _ hs rfl rfl rfl ⟨_, rfl, rfl, rfl⟩
  | configureFails | installFails | submitFails | waitErr | waitTimeout =>
    exact .fatal _ hs rfl rfl rfl ⟨_, rfl, rfl, rfl⟩
  | releases | pxGranted | plGranted | configured | submitted =>
    exact .nothing (.inr rfl) rfl rfl ⟨_, rfl, rfl⟩
  | initPasses | releasesNone | showPasses | copies | fills =>
    exact .nothing (.inr rfl) rfl rfl ⟨[], (List.append_nil _).symm, rfl⟩
  | waitBlocked => exact .nothing (.inl rfl) rfl rfl ⟨[], (List.append_nil _).symm, rfl⟩

theorem step_ends (h : step s = .next t) (hr : ¬ resetNow s) : s.Ends t := by
  rcases step_cases h (not_rst_of_not_resetNow hr) with
    hb | ⟨-, ha⟩ | ⟨s', hb, hd⟩ | ⟨s', f, hb, -, -, -, hd⟩
  · exact hb.ends
  · exact ha.ends
  · exact .after_beside hb hd.ends
  · exact .after_beside hb hd.ends

theorem busy_eq_false (h : t.phase = .idle ∨ t.phase = .fault) : t.busy = false := by
  rcases h with h | h <;> simp [State.busy, h]

/-- Settles O38: the three ways a step can stand to the end of a command, told apart by the two phases. -/
theorem commandEndsInOneResultOrFault : Obligations.CommandEndsInOneResultOrFault := by
  unfold Obligations.CommandEndsInOneResultOrFault
  intro s t h hr
  cases step_ends h hr with
  | result code hs ht hres hf hh =>
    obtain ⟨l, hhist, hl⟩ := hh.exists_append
    refine ⟨fun _ _ => ⟨l, code, hhist, hres, hf, hl⟩, fun _ hp => ?_, fun hb => ?_⟩
    · simp [ht] at hp
    · simp [hs, busy_eq_false (.inl ht)] at hb
  | fatal cause hs ht hres hf hh =>
    obtain ⟨l, hhist, hl⟩ := hh.exists_append
    refine ⟨fun _ hp => ?_, fun _ _ => ⟨l, cause, hhist, hf, hres, hl⟩, fun hb => ?_⟩
    · simp [ht] at hp
    · simp [hs, busy_eq_false (.inr ht)] at hb
  | nothing hb hres hf hh =>
    obtain ⟨l, hhist, hall⟩ := hh
    refine ⟨fun hs hp => ?_, fun hs hp => ?_, fun _ =>
      ⟨l, hhist, hres, hf, fun e he => Event.endsNothing_ne (List.all_eq_true.mp hall e he)⟩⟩
    · simp [hs, busy_eq_false (.inl hp)] at hb
    · simp [hs, busy_eq_false (.inr hp)] at hb

/-! ### Past the wait bound -/

/-- Settles O47: a SHOW that leaves its wait for `IDLE` had a frame within the bound. -/
theorem frameLongerThanTheBoundNeverReturnsOk : Obligations.FrameLongerThanTheBoundNeverReturnsOk := by
  unfold Obligations.FrameLongerThanTheBoundNeverReturnsOk
  intro s t hs hp hlong h hr ht
  obtain ⟨_, _, -, -, -, hdur, -⟩ := showOkMeansTheFrameWasSent s t hs h hr hp ht
  exact absurd hdur (not_le.mpr hlong)

end

end Sys2Proof.Machine
end

section
/-! Reset from any state (70_reset_and_hazards.md R260, R261). -/

namespace Sys2Proof.Machine

/-- Of the state before it, a reset keeps the build's parameters and what is outside the machine, the input it took gone. -/
theorem rst_nextInput {s : State} {i : HostInput} {rest : List HostInput} (h : s.env.inputs = i :: rest) :
    s.nextInput.rst = { State.reset with par := s.par, env := { s.env with inputs := rest } } := by
  rw [State.nextInput, h, List.tail_cons, State.rst]

/-- Settles O32: with reset next in line the step is the reset, whatever the phase. -/
theorem resetFromAnyState : Obligations.ResetFromAnyState := by
  unfold Obligations.ResetFromAnyState
  intro s rest h
  rw [step_reset h, rst_nextInput h]

end Sys2Proof.Machine
end
